-- ==== Sys2Proof/Word.lean ====
section
/-! DEFINITION. The widths the block has (spec/00_scope.md R6, R8). -/

namespace Sys2Proof

/-- 8 bits: an axis or hat field, an operand field, a report byte (R6 `FIELD_W`, R8 `ARG_W`). -/
abbrev Byte := BitVec 8

/-- The 32-bit button mask (R6 `BUTTONS_W`). -/
abbrev ButtonMask := BitVec 32

/-- A command word, `cmd[19:0]` (R8 `CMD_W`, R41). -/
abbrev CmdWord := BitVec 20

end Sys2Proof
end

