-- ==== Sys2Proof/Config.lean ====
section
/-! DEFINITION. What is fixed for a block: the numbers of spec/00_scope.md R6 and the open parameter
`REPORT_ID` of R7. -/

namespace Sys2Proof.Config

/-- `REPORT_ID` (R7, decision D9): the 8-bit report ID, fixed for the life of the block. The spec gives no
value: it is opaque, so nothing can be proved of its value. Log entry 3. -/
opaque reportId : Byte

/-- `REPORT_LEN` (R6): bytes in one report; the `length` handed to the transport is always this. -/
abbrev reportLen : Nat := 13

/-- `N_BUTTONS` (R6): button indexes are 0 to 31. -/
abbrev nButtons : Nat := 32

/-- `N_AXIS_IDS` (R6): members of the closed axis-identifier enumeration. -/
abbrev nAxisIds : Nat := 10

/-- `REST_BUTTONS` (R6): the rest value of the button mask. -/
abbrev restButtons : ButtonMask := 0x00000000#32

/-- `REST_XY` (R6): the rest value of `xAxis` and `yAxis`. -/
abbrev restXY : Byte := 0x80#8

/-- `REST_OTHER` (R6): the rest value of every other axis and hat field. -/
abbrev restOther : Byte := 0x00#8

end Sys2Proof.Config
end

