-- ==== Sys2Proof/Syntax.lean ====
section
/-! DEFINITION. The commands of the block (spec/30_encoding.md R40), its axis identifiers (R45), and the
shape of an opcode-table row (R42). -/

namespace Sys2Proof

/-- The closed enumeration of axis identifiers, in the order of R45 (`x[0]` to `x[9]`). -/
inductive AxisId where
  | x | y | z | xRot | yRot | zRot | throttle | rudder | hat1 | hat2
deriving DecidableEq, Repr

/-- `Command` of R40: one constructor per row of the opcode table. Operands are the 8-bit fields as they
stand (R43): an index of 32 or more, or an identifier of 10 or more, is a command too, and fails when it is
executed (R53). Operand fields that an operation ignores (R49) are no part of a command. Log entry 16. -/
inductive Instr where
  /-- `begin()`, opcode 0x0 (R86). -/
  | beginOp
  /-- `end()`, opcode 0x1 (R87). -/
  | endOp
  /-- `buttonDown(index)`, opcode 0x2 (R65). -/
  | buttonDown (index : Byte)
  /-- `buttonUp(index)`, opcode 0x3 (R66). -/
  | buttonUp (index : Byte)
  /-- `buttonPress(index)`, opcode 0x4 (R67). -/
  | buttonPress (index : Byte)
  /-- `axisSet(axisId, value)`, opcode 0x5 (R75). -/
  | axisSet (axisId : Byte) (value : Byte)
  /-- `axisReset(axisId)`, opcode 0x6 (R76). -/
  | axisReset (axisId : Byte)
  /-- `releaseAll()`, opcode 0x7 (R85). -/
  | releaseAll
  /-- A word with opcode 0x8 to 0xF: it spells none of the eight operations (R47). -/
  | reserved
deriving DecidableEq, Repr

/-- A row of the opcode map of R42: a word selects the row when `(cmd & mask) == pattern`. -/
structure OpcodeRow where
  mnemonic : String
  pattern : CmdWord
  mask : CmdWord
deriving DecidableEq, Repr

end Sys2Proof
end

