-- ==== Sys2Proof/Decode.lean ====
section
/-! DEFINITION. The 20-bit command word (spec/30_encoding.md R41 to R50): the decoder, total on all 2^20 words
(R53), the encoder, the opcode map as a table, and the assembler of R50. -/

namespace Sys2Proof

/-! ### Fields (R41, R43) -/

/-- `op = cmd[19:16]`. -/
def fieldOp (w : CmdWord) : BitVec 4 := w.extractLsb' 16 4

/-- `a = cmd[15:8]`. -/
def fieldA (w : CmdWord) : Byte := w.extractLsb' 8 8

/-- `b = cmd[7:0]`. -/
def fieldB (w : CmdWord) : Byte := w.extractLsb' 0 8

/-- `cmd = {op, a, b}` (R41). -/
def packFields (op : BitVec 4) (a b : Byte) : CmdWord := op ++ a ++ b

/-! ### Decoding -/

/-- The opcode map of R42. Opcodes 0x8 to 0xF decode to `reserved` (R47); unused operand fields are
ignored (R49). -/
def decode (w : CmdWord) : Instr :=
  match (fieldOp w).toNat with
  | 0 => .beginOp
  | 1 => .endOp
  | 2 => .buttonDown (fieldA w)
  | 3 => .buttonUp (fieldA w)
  | 4 => .buttonPress (fieldA w)
  | 5 => .axisSet (fieldA w) (fieldB w)
  | 6 => .axisReset (fieldA w)
  | 7 => .releaseAll
  | _ => .reserved

/-- The decoder as the host asks for it: the instruction whose bits are `w`, bit 0 the least significant bit of
the one command word. The command port has 20 wires (R61), so a value of 21 bits or more is no command word. -/
def decodeTableWord (_nbits w : Nat) : Option Instr :=
  if w < 2 ^ 20 then some (decode (BitVec.ofNat 20 w)) else none

/-! ### Encoding -/

/-- The word of a command: the assembled word of R50, 0 in every unused field. A reserved command has no
assembler form; its word is the row's own pattern, 0x80000 (R42). -/
def encode : Instr → CmdWord
  | .beginOp => packFields 0x0 0 0
  | .endOp => packFields 0x1 0 0
  | .buttonDown i => packFields 0x2 i 0
  | .buttonUp i => packFields 0x3 i 0
  | .buttonPress i => packFields 0x4 i 0
  | .axisSet a v => packFields 0x5 a v
  | .axisReset a => packFields 0x6 a 0
  | .releaseAll => packFields 0x7 0 0
  | .reserved => packFields 0x8 0 0

/-- The row's mnemonic in the opcode table (R42). -/
def Instr.mnemonic : Instr → String
  | .beginOp => "BEGIN"
  | .endOp => "END"
  | .buttonDown _ => "BUTTON_DOWN"
  | .buttonUp _ => "BUTTON_UP"
  | .buttonPress _ => "BUTTON_PRESS"
  | .axisSet _ _ => "AXIS_SET"
  | .axisReset _ => "AXIS_RESET"
  | .releaseAll => "RELEASE_ALL"
  | .reserved => "RESERVED"

/-- The Match and Mask columns of R42, row for row. -/
def opcodeTable : List OpcodeRow :=
  [ ⟨"BEGIN", 0x00000, 0xF0000⟩,
    ⟨"END", 0x10000, 0xF0000⟩,
    ⟨"BUTTON_DOWN", 0x20000, 0xF0000⟩,
    ⟨"BUTTON_UP", 0x30000, 0xF0000⟩,
    ⟨"BUTTON_PRESS", 0x40000, 0xF0000⟩,
    ⟨"AXIS_SET", 0x50000, 0xF0000⟩,
    ⟨"AXIS_RESET", 0x60000, 0xF0000⟩,
    ⟨"RELEASE_ALL", 0x70000, 0xF0000⟩,
    ⟨"RESERVED", 0x80000, 0x80000⟩ ]

/-- R42: a word selects the operation of a row when `(cmd & Mask) == Match`. -/
def OpcodeRow.selectedBy (r : OpcodeRow) (w : CmdWord) : Bool := decide (w &&& r.mask = r.pattern)

/-! ### The axis identifiers' numbers and names (R45) -/

/-- The identifier's number, 0 to 9 (R45, decision D3). -/
def AxisId.code : AxisId → Byte
  | .x => 0
  | .y => 1
  | .z => 2
  | .xRot => 3
  | .yRot => 4
  | .zRot => 5
  | .throttle => 6
  | .rudder => 7
  | .hat1 => 8
  | .hat2 => 9

/-- The ten assembler constants of R45. -/
def axisNames : List (String × AxisId) :=
  [ ("AXIS_X", .x), ("AXIS_Y", .y), ("AXIS_Z", .z), ("AXIS_RX", .xRot), ("AXIS_RY", .yRot),
    ("AXIS_RZ", .zRot), ("AXIS_THROTTLE", .throttle), ("AXIS_RUDDER", .rudder),
    ("AXIS_HAT1", .hat1), ("AXIS_HAT2", .hat2) ]

/-! ### The assembler (R50). Blanks around an operand and the case of hexadecimal digits: log entry 17. -/

/-- The sixteen digits of R50's numbers, a digit standing at its value; once in each case of the letters. -/
def digitAlphabets : List (List Char) := ["0123456789ABCDEF".toList, "0123456789abcdef".toList]

/-- A digit's value: its place in either alphabet. `readDigits` refuses a value that the base does not have. -/
def digitValue (c : Char) : Option Nat := digitAlphabets.findSome? (List.findIdx? (· = c))

/-- Digits read on from `acc` in the given base. -/
def readDigits (base : Nat) : Nat → List Char → Option Nat
  | acc, [] => some acc
  | acc, c :: cs =>
    match digitValue c with
    | some d => if d < base then readDigits base (base * acc + d) cs else none
    | none => none

/-- A number of R50: decimal, or hexadecimal after `0x`. -/
def readNumber : List Char → Option Nat
  | '0' :: 'x' :: c :: cs => readDigits 16 0 (c :: cs)
  | c :: cs => readDigits 10 0 (c :: cs)
  | [] => none

/-- R50: `i`, `id` and `v` are numbers 0 to 255. -/
def readByte (cs : List Char) : Option Byte :=
  match readNumber cs with
  | some n => if n < 256 then some (BitVec.ofNat 8 n) else none
  | none => none

/-- R50: an `id` operand may also be one of the ten names of R45. -/
def readAxisOperand (cs : List Char) : Option Byte :=
  match axisNames.find? (fun p => decide (p.1.toList = cs)) with
  | some p => some p.2.code
  | none => readByte cs

/-- A text without its leading and trailing blanks. -/
def trimBlanks (cs : List Char) : List Char :=
  ((cs.dropWhile (· = ' ')).reverse.dropWhile (· = ' ')).reverse

/-- The comma-separated operands of a line; none when nothing but blanks stands there. -/
def operandTexts (cs : List Char) : List (List Char) :=
  if trimBlanks cs = [] then [] else (cs.splitOn ',').map trimBlanks

/-- The command that a mnemonic and its used operands spell (R50, the eight forms). -/
def assembleParts (mnemonic : List Char) : List (List Char) → Option Instr
  | [] =>
    if mnemonic = "BEGIN".toList then some .beginOp
    else if mnemonic = "END".toList then some .endOp
    else if mnemonic = "RELEASE_ALL".toList then some .releaseAll
    else none
  | [p] =>
    if mnemonic = "BUTTON_DOWN".toList then (readByte p).map .buttonDown
    else if mnemonic = "BUTTON_UP".toList then (readByte p).map .buttonUp
    else if mnemonic = "BUTTON_PRESS".toList then (readByte p).map .buttonPress
    else if mnemonic = "AXIS_RESET".toList then (readAxisOperand p).map .axisReset
    else none
  | [p, q] =>
    if mnemonic = "AXIS_SET".toList then
      match readAxisOperand p, readByte q with
      | some a, some v => some (.axisSet a v)
      | _, _ => none
    else none
  | _ :: _ :: _ :: _ => none

/-- R50: one assembler line, a mnemonic and its used operands, to its command. -/
def assembleInstr (line : String) : Option Instr :=
  let cs := trimBlanks line.toList
  assembleParts (cs.takeWhile (· ≠ ' ')) (operandTexts (cs.dropWhile (· ≠ ' ')))

/-- R50: one assembler line to its word, unused fields 0. -/
def assemble (line : String) : Option CmdWord := (assembleInstr line).map encode

end Sys2Proof
end

