-- ==== Sys2Proof/Machine/State.lean ====
section
/-! DEFINITION. The state of the block (spec/10_state.md R10), the environment's side of a run that stands
beside it (R19, R57, R120; log entry 1), the reasons a step can stop, and the state after reset (R16). -/

namespace Sys2Proof.Machine

/-- `JoystickState` (R10): the eleven registers of the block, and all its architectural state (R24). -/
structure JoystickState where
  /-- 32-bit button mask; bit i is 1 when button index i is down (R11). -/
  buttons : ButtonMask
  /-- `x[0]` (R12). -/
  xAxis : Byte
  /-- `x[1]` (R12). -/
  yAxis : Byte
  /-- `x[2]` (R12). -/
  zAxis : Byte
  /-- `x[3]` (R12). -/
  xRotAxis : Byte
  /-- `x[4]` (R12). -/
  yRotAxis : Byte
  /-- `x[5]` (R12). -/
  zRotAxis : Byte
  /-- `x[6]` (R12). -/
  throttle : Byte
  /-- `x[7]` (R12). -/
  rudder : Byte
  /-- `x[8]`: 8 bits stored, the low 4 reported (R12, R13). -/
  hatSw1 : Byte
  /-- `x[9]`: 8 bits stored, the low 4 reported (R12, R13). -/
  hatSw2 : Byte
deriving DecidableEq, Repr

/-- `REST` (R14): every field at its rest value. -/
def JoystickState.rest : JoystickState where
  buttons := Config.restButtons
  xAxis := Config.restXY
  yAxis := Config.restXY
  zAxis := Config.restOther
  xRotAxis := Config.restOther
  yRotAxis := Config.restOther
  zRotAxis := Config.restOther
  throttle := Config.restOther
  rudder := Config.restOther
  hatSw1 := Config.restOther
  hatSw2 := Config.restOther

/-- A report: the 13 bytes of the buffer, offset 0 first (R25). Offsets 13 and above do not exist. -/
abbrev Report := Vector Byte Config.reportLen

/-- One transmit event: the three arguments of `Transmit(id, buf, len)` (spec/40_report_encoder.md R57). -/
structure TxEvent where
  reportId : Byte
  buffer : Report
  length : Nat
deriving DecidableEq, Repr

/-- The result indicator of a command (R52): `FAIL` or `OK`. -/
inductive Result where
  | fail
  | ok
deriving DecidableEq, Repr

/-- The three failure causes (R94). They are labels: the block neither outputs nor records a cause (R95). -/
inductive FailCause where
  /-- `F_AXIS`: unknown axis identifier. -/
  | axis
  /-- `F_INDEX`: button index of 32 or more. -/
  | index
  /-- `F_OPCODE`: reserved opcode. -/
  | opcode
deriving DecidableEq, Repr

/-- One mutation of the registers by an operation; the complete list of what R17 says is written. -/
inductive Mutation where
  /-- `S.buttons <- S.buttons | (1 << i)` (R65, R67 phase 1). -/
  | setButton (i : Byte)
  /-- `S.buttons <- S.buttons & ~(1 << i)` (R66, R67 phase 2). -/
  | clearButton (i : Byte)
  /-- `x[id] <- v` (R75, R76). -/
  | writeAxis (id : AxisId) (v : Byte)
  /-- `S <- REST` (R85, R86). -/
  | toRest
deriving DecidableEq, Repr

/-- What one command does (R60): its mutations in order, each followed at once by the transmit of the whole
state (R33 (c), R59), then its result. -/
structure Plan where
  phases : List Mutation
  result : Result
deriving DecidableEq, Repr

/-- What the environment does next at the block's boundary: the caller presents a command (R19), or reset is
asserted, between commands or inside one (R107). -/
inductive Input where
  /-- The caller presents this command word and waits for its result. -/
  | command (w : CmdWord)
  /-- Reset between two commands. -/
  | reset
  /-- The caller presents this command word, and reset is asserted before its result is returned, after `sent`
  of its reports have been handed over: the rest are not sent and no result is returned (R107). -/
  | cutShort (w : CmdWord) (sent : Nat)
deriving DecidableEq, Repr

/-- The block and the two sides of its environment that a run shows (R120). Only `joystick` is state of the
block (R10, R22); the other three fields are the model's own (log entry 1). -/
structure State where
  /-- `S`, the one state record of the block (R2, R10). -/
  joystick : JoystickState
  /-- What the environment has yet to present, oldest first: arrival order is program order (R19). -/
  caller : List Input
  /-- The transmit events handed to the transport so far, oldest first (R57, R120). -/
  sent : List TxEvent
  /-- The result indicators returned so far, oldest first (R52, R120). -/
  results : List Result
deriving DecidableEq, Repr

/-- The block never faults: "There is no third outcome: no fault, no hang, no partial update inside the block"
(R60). No constructor, so no step can raise one. -/
inductive Fault where
deriving DecidableEq, Repr

/-- Reasons the model has no meaning for an instruction. -/
inductive Refusal where
  /-- Raised by an arm of `exec` whose instruction has no meaning yet; no arm raises it. Safe. -/
  | notModelled (mnemonic : String)
deriving DecidableEq, Repr

/-- The machine right after reset: `S = REST` (R16, R107), nothing transmitted (R110), no result returned, and
the caller has presented nothing (log entry 2). -/
def State.reset : State where
  joystick := .rest
  caller := []
  sent := []
  results := []

end Sys2Proof.Machine
end

