-- ==== Sys2Proof/Machine/Operands.lean ====
section
/-! DEFINITION. The operand forms of the block: the button index and the bit it names (spec/30_encoding.md R44,
spec/41_button_ops.md R68), and the axis identifier, the block's one addressing mode (R45,
spec/42_axis_ops.md R77). -/

namespace Sys2Proof.Machine

/-- R68: the index check, `a >= 32`. -/
def indexOutOfRange (a : Byte) : Bool := decide (Config.nButtons ≤ a.toNat)

/-- `1 << a` at 32 bits, the index zero-extended (R43, R64). Used only after the index check, so never with a
shift of 32 or more. -/
def buttonBit (a : Byte) : ButtonMask := 1#32 <<< a.toNat

/-- R77: the axis identifier `a` looked up in the closed table of R45; 10 to 255 select nothing (R48). -/
def lookupAxis (a : Byte) : Option AxisId :=
  match a.toNat with
  | 0 => some .x
  | 1 => some .y
  | 2 => some .z
  | 3 => some .xRot
  | 4 => some .yRot
  | 5 => some .zRot
  | 6 => some .throttle
  | 7 => some .rudder
  | 8 => some .hat1
  | 9 => some .hat2
  | _ => none

/-- `rest(i)` (R14): 0x80 for X and Y, 0x00 for the other eight. -/
def axisRest : AxisId → Byte
  | .x => Config.restXY
  | .y => Config.restXY
  | .z => Config.restOther
  | .xRot => Config.restOther
  | .yRot => Config.restOther
  | .zRot => Config.restOther
  | .throttle => Config.restOther
  | .rudder => Config.restOther
  | .hat1 => Config.restOther
  | .hat2 => Config.restOther

/-- Reading `x[i]` (R12): the named field, the same register. -/
def JoystickState.readAxis (S : JoystickState) : AxisId → Byte
  | .x => S.xAxis
  | .y => S.yAxis
  | .z => S.zAxis
  | .xRot => S.xRotAxis
  | .yRot => S.yRotAxis
  | .zRot => S.zRotAxis
  | .throttle => S.throttle
  | .rudder => S.rudder
  | .hat1 => S.hatSw1
  | .hat2 => S.hatSw2

/-- `x[i] <- v` (R12): all 8 bits, no masking (R13, R75). -/
def JoystickState.writeAxis (S : JoystickState) (id : AxisId) (v : Byte) : JoystickState :=
  match id with
  | .x => { S with xAxis := v }
  | .y => { S with yAxis := v }
  | .z => { S with zAxis := v }
  | .xRot => { S with xRotAxis := v }
  | .yRot => { S with yRotAxis := v }
  | .zRot => { S with zRotAxis := v }
  | .throttle => { S with throttle := v }
  | .rudder => { S with rudder := v }
  | .hat1 => { S with hatSw1 := v }
  | .hat2 => { S with hatSw2 := v }

end Sys2Proof.Machine
end

