-- ==== Sys2Proof/Machine/Report.lean ====
section
/-! DEFINITION. The report: `Encode` (spec/40_report_encoder.md R55), the byte accesses to the report buffer
(spec/00_scope.md section 4, spec/20_memory.md R25, R27), the transmit event (R57) and the report as the 104-bit
port value (R62). -/

namespace Sys2Proof.Machine

/-- Byte 6, `trunc_8((zext(hatSw2) << 4) | (hatSw1 & 0x0F))` (R55): hat 1 in the low nibble, hat 2 in the high
nibble (R29). -/
def hatByte (hat1 hat2 : Byte) : Byte := (hat2 <<< 4) ||| (hat1 &&& 0x0F#8)

/-- `Encode(S)` (R55): the 13-byte report of a state, offsets 0 to 12 (R26). -/
def encodeReport (S : JoystickState) : Report :=
  #v[S.buttons.extractLsb' 0 8,
     S.buttons.extractLsb' 8 8,
     S.buttons.extractLsb' 16 8,
     S.buttons.extractLsb' 24 8,
     S.throttle,
     S.rudder,
     hatByte S.hatSw1 S.hatSw2,
     S.xAxis,
     S.yAxis,
     S.zAxis,
     S.xRotAxis,
     S.yRotAxis,
     S.zRotAxis]

/-- `MemWrite(k, n, v)` on a report buffer: the n-byte value v at offsets k to k+n-1, least significant byte at
offset k (R27). `none` where it touches an offset of 13 or above, which does not exist (R25): DEDUCED, log entry 18. -/
def memWrite (r : Report) (k : Nat) : Nat → Nat → Option Report
  | 0, _ => some r
  | n + 1, v =>
    if h : k < Config.reportLen then memWrite (r.set k (BitVec.ofNat 8 v) h) (k + 1) n (v / 256) else none

/-- `MemRead(k, n)` on a report buffer: the n-byte little-endian value at offsets k to k+n-1. Only the transport
reads the buffer (R25). `none` where it touches an offset of 13 or above: DEDUCED, log entry 18. -/
def memRead (r : Report) (k : Nat) : Nat → Option Nat
  | 0 => some 0
  | n + 1 =>
    match r[k]?, memRead r (k + 1) n with
    | some b, some rest => some (b.toNat + 256 * rest)
    | _, _ => none

/-- The event of `Transmit(REPORT_ID, Encode(S), 13)` (R57). -/
def txEvent (S : JoystickState) : TxEvent where
  reportId := Config.reportId
  buffer := encodeReport S
  length := Config.reportLen

/-- `tx_data` (R62): byte k of the report in bits 8k+7 to 8k. -/
def txData (r : Report) : BitVec 104 :=
  r[12] ++ r[11] ++ r[10] ++ r[9] ++ r[8] ++ r[7] ++ r[6] ++ r[5] ++ r[4] ++ r[3] ++ r[2] ++ r[1] ++ r[0]

/-- What the low four bits of a hat field mean (spec/10_state.md R13). The block does not interpret them. -/
inductive HatReading where
  /-- Values 0 to 7: a direction, in degrees. -/
  | direction (degrees : Nat)
  /-- Value 8. -/
  | neutral
  /-- Values 9 to 15: given no meaning. -/
  | unnamed
deriving DecidableEq, Repr

/-- R13: value k in 0 to 7 is k times 45 degrees, 8 is neutral, 9 to 15 have no meaning. -/
def hatReading (nibble : BitVec 4) : HatReading :=
  if nibble.toNat < 8 then .direction (nibble.toNat * 45)
  else if nibble.toNat = 8 then .neutral
  else .unnamed

end Sys2Proof.Machine
end

