-- ==== Sys2Proof/Machine/Ops.lean ====
section
/-! DEFINITION. The shared operations: what a mutation writes (spec/10_state.md R17), transmitting
(spec/40_report_encoder.md R57, R59), performing a command (R60), failing (spec/60_exceptions.md R96), reset
(spec/70_reset_and_hazards.md R107), and the caller's side of the command port (R19). -/

namespace Sys2Proof.Machine

/-! ### Registers -/

/-- What each mutation makes of the registers (R17, R64). -/
def Mutation.apply : Mutation → JoystickState → JoystickState
  | .setButton i, S => { S with buttons := S.buttons ||| buttonBit i }
  | .clearButton i, S => { S with buttons := S.buttons &&& ~~~(buttonBit i) }
  | .writeAxis id v, S => S.writeAxis id v
  | .toRest, _ => .rest

/-! ### A command, step by step -/

/-- The registers change; nothing else does. -/
def State.mutate (s : State) (m : Mutation) : State := { s with joystick := m.apply s.joystick }

/-- `Transmit(REPORT_ID, Encode(S), 13)`: one transmit event, the state unchanged (R57). The status the
transport returns is ignored (R58). -/
def State.transmit (s : State) : State := { s with sent := s.sent ++ [txEvent s.joystick] }

/-- `result <- r` (R52): the indicator is returned to the caller; nothing keeps it for a later command. -/
def State.answer (s : State) (r : Result) : State := { s with results := s.results ++ [r] }

/-- Mutate, then transmit the whole state at once, whether or not the value changed (R33 (c), R34, R59). -/
def State.runPhase (s : State) (m : Mutation) : State := (s.mutate m).transmit

/-- The phases of a command in order (R33 (b)). -/
def State.runPhases (s : State) (ms : List Mutation) : State := ms.foldl State.runPhase s

/-- One command as one atomic step (R60, R63): its phases, then its result. -/
def State.perform (s : State) (p : Plan) : State := (s.runPhases p.phases).answer p.result

/-! ### Failure: the block's one exception-like event -/

/-- `raise Fail(cause)` (R96), for every cause: no field is written, no report is transmitted, the result is
`FAIL`. The cause is recorded nowhere (R95), so there is nothing to return from (R98). -/
def raiseFail (_cause : FailCause) : Plan where
  phases := []
  result := .fail

/-! ### Reset -/

/-- The reset event (R107): `S <- REST`; nothing is transmitted, no result is returned. -/
def State.resetBlock (s : State) : State := { s with joystick := .rest }

/-- Reset while a command is in progress, after `sent` of its reports have been handed over (R107): the other
reports are not sent and no result is returned. -/
def State.abandon (s : State) (p : Plan) (sent : Nat) : State :=
  (s.runPhases (p.phases.take sent)).resetBlock

/-! ### The caller -/

/-- The inputs still to come. -/
def State.withCaller (s : State) (inputs : List Input) : State := { s with caller := inputs }

/-- The caller presents the command word whose bits are `w` ahead of everything else it has to present. The
command port has 20 wires (R61): a wider value cannot be presented. -/
def State.present (s : State) (w : Nat) : State :=
  if w < 2 ^ 20 then s.withCaller (.command (BitVec.ofNat 20 w) :: s.caller) else s

end Sys2Proof.Machine
end

