-- ==== Sys2Proof/Machine/Axes.lean ====
section
/-! DEFINITION. AXIS_SET, AXIS_RESET (spec/42_axis_ops.md). -/

namespace Sys2Proof.Machine

/-- AXIS_SET (R75): all 8 bits of the value, no masking, no clamping (R78); unknown identifiers fail (R80). -/
def planAxisSet (axisId value : Byte) : Plan :=
  match lookupAxis axisId with
  | none => raiseFail .axis
  | some id => { phases := [.writeAxis id value], result := .ok }

/-- AXIS_RESET (R76): the field's rest value; unknown identifiers fail (R80). -/
def planAxisReset (axisId : Byte) : Plan :=
  match lookupAxis axisId with
  | none => raiseFail .axis
  | some id => { phases := [.writeAxis id (axisRest id)], result := .ok }

/-- AXIS_SET as one atomic step (R60, R75). -/
def execAxisSet (axisId value : Byte) (s : State) : Host.Outcome State Fault Refusal :=
  .next (s.perform (planAxisSet axisId value))

/-- AXIS_RESET as one atomic step (R60, R76). -/
def execAxisReset (axisId : Byte) (s : State) : Host.Outcome State Fault Refusal :=
  .next (s.perform (planAxisReset axisId))

end Sys2Proof.Machine
end

