-- ==== Sys2Proof/Machine/Buttons.lean ====
section
/-! DEFINITION. BUTTON_DOWN, BUTTON_UP, BUTTON_PRESS (spec/41_button_ops.md). -/

namespace Sys2Proof.Machine

/-- BUTTON_DOWN (R65). -/
def planButtonDown (index : Byte) : Plan :=
  if indexOutOfRange index then raiseFail .index
  else { phases := [.setButton index], result := .ok }

/-- BUTTON_UP (R66). -/
def planButtonUp (index : Byte) : Plan :=
  if indexOutOfRange index then raiseFail .index
  else { phases := [.clearButton index], result := .ok }

/-- BUTTON_PRESS (R67): down, report, up, report; the result is that of the down phase. -/
def planButtonPress (index : Byte) : Plan :=
  if indexOutOfRange index then raiseFail .index
  else { phases := [.setButton index, .clearButton index], result := .ok }

/-- BUTTON_DOWN as one atomic step (R60, R65). -/
def execButtonDown (index : Byte) (s : State) : Host.Outcome State Fault Refusal :=
  .next (s.perform (planButtonDown index))

/-- BUTTON_UP as one atomic step (R60, R66). -/
def execButtonUp (index : Byte) (s : State) : Host.Outcome State Fault Refusal :=
  .next (s.perform (planButtonUp index))

/-- BUTTON_PRESS as one atomic step (R60, R67). -/
def execButtonPress (index : Byte) (s : State) : Host.Outcome State Fault Refusal :=
  .next (s.perform (planButtonPress index))

end Sys2Proof.Machine
end

