-- ==== Sys2Proof/Machine/Lifecycle.lean ====
section
/-! DEFINITION. RELEASE_ALL, BEGIN, END (spec/43_lifecycle_ops.md) and the reserved opcodes
(spec/30_encoding.md R47). -/

namespace Sys2Proof.Machine

/-- RELEASE_ALL (R85): every field to rest as one update, one report; it cannot fail. -/
def planReleaseAll : Plan where
  phases := [.toRest]
  result := .ok

/-- BEGIN (R86): "`begin` invokes `releaseAll`"; no marker is kept (R88). -/
def planBegin : Plan where
  phases := [.toRest]
  result := .ok

/-- END (R87): a no-op that returns `OK`; no report. -/
def planEnd : Plan where
  phases := []
  result := .ok

/-- A reserved opcode (R47): rejected with cause `F_OPCODE`. -/
def planReserved : Plan := raiseFail .opcode

/-- RELEASE_ALL as one atomic step (R60, R85). -/
def execReleaseAll (s : State) : Host.Outcome State Fault Refusal := .next (s.perform planReleaseAll)

/-- BEGIN as one atomic step (R60, R86). -/
def execBegin (s : State) : Host.Outcome State Fault Refusal := .next (s.perform planBegin)

/-- END as one atomic step (R60, R87). -/
def execEnd (s : State) : Host.Outcome State Fault Refusal := .next (s.perform planEnd)

/-- A reserved opcode as one atomic step (R47, R60). -/
def execReserved (s : State) : Host.Outcome State Fault Refusal := .next (s.perform planReserved)

end Sys2Proof.Machine
end

