-- ==== Sys2Proof/Machine/Plan.lean ====
section
/-! DEFINITION. What each command does, by command: the phases a reset in the middle of the command cuts short
(spec/70_reset_and_hazards.md R107) and the port model presents one after the other
(spec/40_report_encoder.md R63). -/

namespace Sys2Proof.Machine

/-- The plan of each command: the dispatch of R60. -/
def planOf : Instr → Plan
  | .beginOp => planBegin
  | .endOp => planEnd
  | .buttonDown index => planButtonDown index
  | .buttonUp index => planButtonUp index
  | .buttonPress index => planButtonPress index
  | .axisSet axisId value => planAxisSet axisId value
  | .axisReset axisId => planAxisReset axisId
  | .releaseAll => planReleaseAll
  | .reserved => planReserved

end Sys2Proof.Machine
end

