-- ==== Sys2Proof/Machine/Dispatch.lean ====
section
/-! DEFINITION. The dispatch of spec/40_report_encoder.md R60: one arm per command. -/

namespace Sys2Proof.Machine

def exec (i : Instr) (s : State) : Host.Outcome State Fault Refusal :=
  match i with
  | .beginOp => Sys2Proof.Machine.execBegin s
  | .endOp => Sys2Proof.Machine.execEnd s
  | .buttonDown index => Sys2Proof.Machine.execButtonDown index s
  | .buttonUp index => Sys2Proof.Machine.execButtonUp index s
  | .buttonPress index => Sys2Proof.Machine.execButtonPress index s
  | .axisSet axisId value => Sys2Proof.Machine.execAxisSet axisId value s
  | .axisReset axisId => Sys2Proof.Machine.execAxisReset axisId s
  | .releaseAll => Sys2Proof.Machine.execReleaseAll s
  | .reserved => Sys2Proof.Machine.execReserved s

end Sys2Proof.Machine
end

