-- ==== Sys2Proof/Machine/Step.lean ====
section
/-! DEFINITION. One step of the machine: the next thing the environment does (spec/10_state.md R19,
spec/70_reset_and_hazards.md R107, R120). -/

namespace Sys2Proof.Machine

/-- The next input, oldest first: a command is executed whole (R60, R63), a reset resets (R107). When the caller
presents nothing, the block does nothing (R102, R120). -/
def step (s : State) : Host.Outcome State Fault Refusal :=
  match s.caller with
  | [] => .next s
  | .command w :: rest => exec (decode w) (s.withCaller rest)
  | .reset :: rest => .next (s.withCaller rest).resetBlock
  | .cutShort w sent :: rest => .next ((s.withCaller rest).abandon (planOf (decode w)) sent)

/-- The state in which the caller presents the command word whose bits are `w` next: the block fetches nothing
(R19), so presenting a command stands for placing it where a fetch would look. Log entry 2. -/
def State.withFetchWord (s : State) (_nbits w : Nat) : State := s.present w

end Sys2Proof.Machine
end

