-- ==== Sys2Proof/Machine/Flags.lean ====
section
/-! DEFINITION. The block has no flags, condition codes or predicates (spec/10_state.md R20). The one status an
operation yields is its result indicator, an output that nothing reads (R52). -/

namespace Sys2Proof.Machine

/-- The result indicator as the bit on `resp_ok`: `FAIL` = 0, `OK` = 1 (R52). -/
def Result.bit : Result → BitVec 1
  | .fail => 0#1
  | .ok => 1#1

end Sys2Proof.Machine
end

