-- ==== Sys2Proof/Machine/Ports.lean ====
section
/-! DEFINITION. The block at its ports (spec/40_report_encoder.md R61 to R63, spec/70_reset_and_hazards.md R107,
R108, R116): one clock cycle as one function. How many cycles the block takes inside is not specified (R118), so
every cycle takes a Bool `go`, free in every statement, that says whether the block advances inside; it stands
for any implementation's latency (log entry 9). The atomic step of `Machine/Step.lean` is what this refines. -/

namespace Sys2Proof.Machine

/-- The input pins in one clock cycle (R61); `clk` is the cycle itself. -/
structure PortIn where
  rst : Bool
  cmdValid : Bool
  cmd : CmdWord
  txReady : Bool
  /-- The transport's status for the report just handed over; ignored (R58). -/
  txStatus : Bool
deriving DecidableEq, Repr

/-- The output pins in one clock cycle (R61). `respOk` and `txData` are `none` where R61 gives the pin no
meaning (log entry 10). -/
structure PortOut where
  cmdReady : Bool
  respValid : Bool
  respOk : Option (BitVec 1)
  txValid : Bool
  txReportId : Byte
  txLen : BitVec 4
  txDataPin : Option (BitVec 104)
deriving DecidableEq, Repr

/-- Where the block stands in the command it is executing (R63). -/
inductive PortCtl where
  /-- No command in progress. -/
  | idle
  /-- A command is in progress; these of its mutations are still to be made. -/
  | busy (todo : List Mutation) (result : Result)
  /-- The report of the last mutation is presented and has not been handed over. -/
  | sending (todo : List Mutation) (result : Result)
  /-- All reports have been handed over and the result is on the response port. -/
  | responding (result : Result)
deriving DecidableEq, Repr

/-- The block seen from its ports: its registers and where it stands. -/
structure PortState where
  joystick : JoystickState
  ctl : PortCtl
deriving DecidableEq, Repr

/-- After reset the block is idle, `S = REST` (R107). -/
def PortState.afterReset : PortState where
  joystick := .rest
  ctl := .idle

/-- The output pins. While `rst` is 1 nothing is ready or valid (R108). DESIGN CHOICE, unsafe, log entry 24: in the very
cycle in which `resp_valid` is 1, `cmd_ready` is 0, and 1 from the next cycle; "0 until that command's result has been
returned" (R63) does not settle that cycle. -/
def PortState.pins (p : PortState) (rst : Bool) : PortOut where
  cmdReady := !rst && decide (p.ctl = .idle)
  respValid := !rst && (match p.ctl with
    | .responding _ => true
    | .idle => false
    | .busy _ _ => false
    | .sending _ _ => false)
  respOk := if rst then none else (match p.ctl with
    | .responding r => some r.bit
    | .idle => none
    | .busy _ _ => none
    | .sending _ _ => none)
  txValid := !rst && (match p.ctl with
    | .sending _ _ => true
    | .idle => false
    | .busy _ _ => false
    | .responding _ => false)
  txReportId := Config.reportId
  txLen := BitVec.ofNat 4 Config.reportLen
  txDataPin := if rst then none else (match p.ctl with
    | .sending _ _ => some (txData (encodeReport p.joystick))
    | .idle => none
    | .busy _ _ => none
    | .responding _ => none)

/-- The block advances inside a command: it makes the next mutation and presents its report, or, when none is
left, returns the result (R63). -/
def PortState.advance (p : PortState) (todo : List Mutation) (result : Result) : PortState :=
  match todo with
  | [] => { p with ctl := .responding result }
  | m :: rest => { joystick := m.apply p.joystick, ctl := .sending rest result }

/-- One clock cycle. A command is accepted where `cmd_valid` and `cmd_ready` are both 1, a report is handed over
where `tx_valid` and `tx_ready` are both 1, and a result stands for exactly one cycle (R61). `rst` overrides
everything (R107, R108). -/
def PortState.cycle (p : PortState) (pin : PortIn) (go : Bool) : PortState :=
  if pin.rst then .afterReset
  else match p.ctl with
    | .idle =>
      if pin.cmdValid then { p with ctl := .busy (planOf (decode pin.cmd)).phases (planOf (decode pin.cmd)).result }
      else p
    | .busy todo result => if go then p.advance todo result else p
    | .sending todo result => if pin.txReady then { p with ctl := .busy todo result } else p
    | .responding _ => { p with ctl := .idle }

/-- The command word accepted in this cycle, if one is (R61). -/
def PortState.accepted (p : PortState) (pin : PortIn) : Option CmdWord :=
  if pin.cmdValid && (p.pins pin.rst).cmdReady then some pin.cmd else none

/-- The transmit event of this cycle, if there is one (R57, R61). -/
def PortState.handedOver (p : PortState) (pin : PortIn) : Option TxEvent :=
  if pin.txReady && (p.pins pin.rst).txValid then some (txEvent p.joystick) else none

/-- The result returned in this cycle, if one is (R61). -/
def PortState.responded (p : PortState) (pin : PortIn) : Option Result :=
  if pin.rst then none
  else match p.ctl with
    | .responding r => some r
    | .idle => none
    | .busy _ _ => none
    | .sending _ _ => none

/-- What has been seen at the boundary so far (R120), and the same history in terms of the atomic step: the
inputs that are over, and the command in progress with the number of its reports already handed over. -/
structure PortLog where
  sent : List TxEvent
  results : List Result
  inputs : List Input
  current : Option (CmdWord × Nat)
deriving DecidableEq, Repr

/-- Nothing seen yet. -/
def PortLog.empty : PortLog where
  sent := []
  results := []
  inputs := []
  current := none

/-- One cycle's events added to the log. A reset ends the command in progress, if there is one (R107). -/
def PortLog.record (log : PortLog) (p : PortState) (pin : PortIn) : PortLog where
  sent := log.sent ++ (p.handedOver pin).toList
  results := log.results ++ (p.responded pin).toList
  inputs := log.inputs ++
    (if pin.rst then
      (match log.current with
       | some (w, n) => [.cutShort w n]
       | none => [.reset])
     else match p.responded pin, log.current with
      | some _, some (w, _) => [.command w]
      | some _, none => []
      | none, _ => [])
  current :=
    if pin.rst then none
    else match p.accepted pin with
      | some w => some (w, 0)
      | none =>
        match p.responded pin with
        | some _ => none
        | none => log.current.map (fun c => (c.1, c.2 + (p.handedOver pin).toList.length))

/-- Many cycles, with the log of what was seen. Each cycle has its input pins and its free `go`. -/
def portRun (p : PortState) (log : PortLog) : List (PortIn × Bool) → PortState × PortLog
  | [] => (p, log)
  | (pin, go) :: rest => portRun (p.cycle pin go) (log.record p pin) rest

/-- The inputs of the atomic machine that a log amounts to: those that are over, and, where a command is still
in progress, that command cut short after the reports it has handed over. -/
def PortLog.atomicInputs (log : PortLog) : List Input :=
  log.inputs ++ (match log.current with
    | some (w, n) => [.cutShort w n]
    | none => [])

end Sys2Proof.Machine
end

