-- ==== Sys2Proof/WellFormed.lean ====
section
/-! DEFINITION. Which commands are inside the source's contract: they spell one of the eight operations and
their operand lies in the range the source gives it. A command outside it still decodes and still executes: it
fails by value (spec/60_exceptions.md R94). Decoding and execution do not use these checks. Log entry 19. -/

namespace Sys2Proof.Instr

/-- R44: the index operand of a button operation is 0 to 31. -/
def indexInRange : Instr → Bool
  | buttonDown i => decide (i.toNat < Config.nButtons)
  | buttonUp i => decide (i.toNat < Config.nButtons)
  | buttonPress i => decide (i.toNat < Config.nButtons)
  | beginOp => true
  | endOp => true
  | axisSet _ _ => true
  | axisReset _ => true
  | releaseAll => true
  | reserved => true

/-- R45, R48: the identifier operand of an axis operation is a member of the closed enumeration. -/
def axisKnown : Instr → Bool
  | axisSet a _ => decide (a.toNat < Config.nAxisIds)
  | axisReset a => decide (a.toNat < Config.nAxisIds)
  | buttonDown _ => true
  | buttonUp _ => true
  | buttonPress _ => true
  | beginOp => true
  | endOp => true
  | releaseAll => true
  | reserved => true

/-- R47: a reserved opcode spells none of the eight operations. -/
def spellsOperation : Instr → Bool
  | reserved => false
  | buttonDown _ => true
  | buttonUp _ => true
  | buttonPress _ => true
  | beginOp => true
  | endOp => true
  | axisSet _ _ => true
  | axisReset _ => true
  | releaseAll => true

/-- The command spells an operation whose operand is in range. -/
def WellFormed (i : Instr) : Bool := i.spellsOperation && i.indexInRange && i.axisKnown

end Sys2Proof.Instr
end

