-- ==== Sys2Proof/Safety.lean ====
section
/-! DEFINITION. The terms that claims about the block use: completing, a run over a list of inputs
(spec/70_reset_and_hazards.md R120), the states a command passes through, the transport being up to date, and the ports
agreeing with the atomic step. -/

namespace Sys2Proof.Machine

/-- The step answers a next state: no fault, no refusal (R60). -/
def Completes (o : Host.Outcome State Fault Refusal) : Prop := ∃ t, o = .next t

/-- A run (R120): from `s`, the environment does `inputs` in order, one step each, and the machine ends in `t`. -/
def RunsTo (s : State) (inputs : List Input) (t : State) : Prop :=
  Host.Core.run Sys2Proof.core inputs.length (s.withCaller inputs) = .next t

/-- The next state that the triple `(S', reports, result)` of R60 stands for, from `s`: the registers become `S'`,
the reports of the states `shown` are handed over in that order, and `result` is returned. -/
def State.after (s : State) (S' : JoystickState) (shown : List JoystickState) (result : Result) : State where
  joystick := S'
  caller := s.caller
  sent := s.sent ++ shown.map (fun S => { reportId := Config.reportId, buffer := encodeReport S, length := 13 })
  results := s.results ++ [result]

/-- The states a list of mutations passes through, oldest first: each is the state as it stands after a mutation and
before any later one (R31). -/
def statesAfter (S : JoystickState) : List Mutation → List JoystickState
  | [] => []
  | m :: ms => m.apply S :: statesAfter (m.apply S) ms

/-- The state a list of mutations ends in. -/
def finalState (S : JoystickState) (ms : List Mutation) : JoystickState := ms.foldl (fun T m => m.apply T) S

/-- The report byte that carries a field (R12, R26); both hats share byte 6. -/
def reportByte : AxisId → Nat
  | .x => 7
  | .y => 8
  | .z => 9
  | .xRot => 10
  | .yRot => 11
  | .zRot => 12
  | .throttle => 4
  | .rudder => 5
  | .hat1 => 6
  | .hat2 => 6

/-- The bits of its report byte that a field is reported in (R12, R29). -/
def reportBit (id : AxisId) (j : Nat) : Bool :=
  match id with
  | .hat1 => decide (j < 4)
  | .hat2 => decide (4 ≤ j ∧ j < 8)
  | .x => decide (j < 8)
  | .y => decide (j < 8)
  | .z => decide (j < 8)
  | .xRot => decide (j < 8)
  | .yRot => decide (j < 8)
  | .zRot => decide (j < 8)
  | .throttle => decide (j < 8)
  | .rudder => decide (j < 8)

/-- The inputs are commands only: no reset among them. -/
def commandsOnly (inputs : List Input) : Bool :=
  inputs.all fun i => match i with
    | .command _ => true
    | .reset => false
    | .cutShort _ _ => false

/-- The input is a command outside the source's contract (it fails by value, R94). -/
def failing : Input → Bool
  | .command w => !(decode w).WellFormed
  | .reset => false
  | .cutShort _ _ => false

/-- The input is a command that changes no register and sends no report: END, or one that fails (R34). -/
def silent : Input → Bool
  | .command w => decide (decode w = .endOp) || !(decode w).WellFormed
  | .reset => false
  | .cutShort _ _ => false

/-- Every transmit event so far was `Transmit(REPORT_ID, _, 13)` (R57). -/
def TransmitsWellFormed (s : State) : Prop :=
  ∀ e ∈ s.sent, e.reportId = Config.reportId ∧ e.length = 13

/-- The last report the transport received, if any, is the report of the state as it is now (R31, R59). -/
def UpToDate (s : State) : Prop :=
  ∀ e, s.sent.getLast? = some e → e.buffer = encodeReport s.joystick

/-- The number of transmit events of a command (spec/20_memory.md R34), by command and outcome. -/
def transmitCount (i : Instr) : Nat :=
  if i.WellFormed then
    match i with
    | .beginOp => 1
    | .endOp => 0
    | .buttonDown _ => 1
    | .buttonUp _ => 1
    | .buttonPress _ => 2
    | .axisSet _ _ => 1
    | .axisReset _ => 1
    | .releaseAll => 1
    | .reserved => 0
  else 0

/-- The port machine, the log of what it showed and the atomic run so far agree. `a` is where the atomic machine
stands after the inputs that are over. With no command in progress the block is idle with the same registers, and the
same reports have been handed over. With one in progress, `made` of its mutations have been made and `todo` remain; the
first `n` of its reports have been handed over, one fewer than made while a report waits, all of them otherwise (R63). -/
def PortsAgree (p : PortState) (log : PortLog) : Prop :=
  ∃ a : State, RunsTo State.reset log.inputs a ∧ log.results = a.results ∧
    match log.current with
    | none => p.ctl = .idle ∧ p.joystick = a.joystick ∧ log.sent = a.sent
    | some (w, n) => ∃ made todo : List Mutation, (planOf (decode w)).phases = made ++ todo ∧
        p.joystick = finalState a.joystick made ∧
        log.sent = a.sent ++ ((statesAfter a.joystick made).take n).map txEvent ∧
        ((p.ctl = .busy todo (planOf (decode w)).result ∧ n = made.length) ∨
          (p.ctl = .sending todo (planOf (decode w)).result ∧ n + 1 = made.length) ∨
          (p.ctl = .responding (planOf (decode w)).result ∧ todo = [] ∧ n = made.length))

end Sys2Proof.Machine
end

