-- ==== Sys2Proof/Certificates/Slice0/Obligations.lean ====
section
/-! DEFINITION. The statements for the provers, in the order of spec/: encoding, report, buttons, axes, lifecycle,
failures, reset, runs, ports. Every one ranges over all states, whether a run reaches them or not. One about exec,
step or a run of the atomic step uses the premise `TRANSPORT_ACCEPTS` of spec/70_reset_and_hazards.md R121, which that
step has built in (R116; log entry 7, the model's choice); one about the ports does not, unless it says so. -/

open Sys2Proof Sys2Proof.Machine

/-! ### Command words -/

/-- Decoding undoes encoding, for every command and every operand value (R41, R42, R43). The word chosen for a
reserved command is the model's (log entry 16). -/
def Obligations.DecodeUndoesEncode : Prop :=
  ∀ i : Instr, decode (encode i) = i

/-- R41: one format; the word is its three fields, and is nothing else. -/
def Obligations.WordIsItsThreeFields : Prop :=
  (∀ (op : BitVec 4) (a b : Byte),
    packFields op a b = (op.setWidth 20 <<< 16) ||| (a.setWidth 20 <<< 8) ||| b.setWidth 20 ∧
    fieldOp (packFields op a b) = op ∧ fieldA (packFields op a b) = a ∧ fieldB (packFields op a b) = b) ∧
  (∀ w : CmdWord, packFields (fieldOp w) (fieldA w) (fieldB w) = w)

/-- R42: the opcode field selects the operation, and the nine rows partition all words. -/
def Obligations.OpcodeMapPartitionsAllWords : Prop :=
  (∀ a b : Byte,
    decode (packFields 0x0 a b) = .beginOp ∧
    decode (packFields 0x1 a b) = .endOp ∧
    decode (packFields 0x2 a b) = .buttonDown a ∧
    decode (packFields 0x3 a b) = .buttonUp a ∧
    decode (packFields 0x4 a b) = .buttonPress a ∧
    decode (packFields 0x5 a b) = .axisSet a b ∧
    decode (packFields 0x6 a b) = .axisReset a ∧
    decode (packFields 0x7 a b) = .releaseAll ∧
    ∀ op : BitVec 4, 8 ≤ op.toNat → decode (packFields op a b) = .reserved) ∧
  opcodeTable.map (fun r => (r.mnemonic, r.pattern, r.mask)) =
    [("BEGIN", 0x00000#20, 0xF0000#20), ("END", 0x10000#20, 0xF0000#20), ("BUTTON_DOWN", 0x20000#20, 0xF0000#20),
     ("BUTTON_UP", 0x30000#20, 0xF0000#20), ("BUTTON_PRESS", 0x40000#20, 0xF0000#20),
     ("AXIS_SET", 0x50000#20, 0xF0000#20), ("AXIS_RESET", 0x60000#20, 0xF0000#20),
     ("RELEASE_ALL", 0x70000#20, 0xF0000#20), ("RESERVED", 0x80000#20, 0x80000#20)] ∧
  (∀ (r : OpcodeRow) (w : CmdWord), r.selectedBy w = true ↔ w &&& r.mask = r.pattern) ∧
  (∀ w : CmdWord, ∃ r ∈ opcodeTable, r.mnemonic = (decode w).mnemonic ∧
    ∀ r' ∈ opcodeTable, (r'.selectedBy w = true ↔ r' = r))

/-- R49: an operand field that the operation does not use may hold any value; the assembled word holds 0. -/
def Obligations.UnusedFieldsAreIgnored : Prop :=
  (∀ (op : BitVec 4) (a b a' b' : Byte),
    (op.toNat = 0 ∨ op.toNat = 1 ∨ 7 ≤ op.toNat → decode (packFields op a b) = decode (packFields op a' b')) ∧
    (op.toNat = 2 ∨ op.toNat = 3 ∨ op.toNat = 4 ∨ op.toNat = 6 →
      decode (packFields op a b) = decode (packFields op a b'))) ∧
  (∀ a b : Byte,
    fieldB (encode (.buttonDown a)) = 0 ∧ fieldB (encode (.buttonUp a)) = 0 ∧
    fieldB (encode (.buttonPress a)) = 0 ∧ fieldB (encode (.axisReset a)) = 0 ∧
    fieldA (encode (.axisSet a b)) = a ∧ fieldB (encode (.axisSet a b)) = b ∧
    fieldA (encode .beginOp) = 0 ∧ fieldB (encode .beginOp) = 0 ∧
    fieldA (encode .endOp) = 0 ∧ fieldB (encode .endOp) = 0 ∧
    fieldA (encode .releaseAll) = 0 ∧ fieldB (encode .releaseAll) = 0)

/-- R45: the closed table of axis identifiers: number, assembler name and field of each; 10 to 255 are unknown. -/
def Obligations.AxisIdentifierTable : Prop :=
  (lookupAxis 0 = some .x ∧ lookupAxis 1 = some .y ∧ lookupAxis 2 = some .z ∧ lookupAxis 3 = some .xRot ∧
    lookupAxis 4 = some .yRot ∧ lookupAxis 5 = some .zRot ∧ lookupAxis 6 = some .throttle ∧
    lookupAxis 7 = some .rudder ∧ lookupAxis 8 = some .hat1 ∧ lookupAxis 9 = some .hat2) ∧
  (∀ a : Byte, 10 ≤ a.toNat → lookupAxis a = none) ∧
  axisNames.map (fun p => (p.1, p.2.code)) =
    [("AXIS_X", 0), ("AXIS_Y", 1), ("AXIS_Z", 2), ("AXIS_RX", 3), ("AXIS_RY", 4), ("AXIS_RZ", 5),
     ("AXIS_THROTTLE", 6), ("AXIS_RUDDER", 7), ("AXIS_HAT1", 8), ("AXIS_HAT2", 9)] ∧
  (∀ S : JoystickState,
    S.readAxis .x = S.xAxis ∧ S.readAxis .y = S.yAxis ∧ S.readAxis .z = S.zAxis ∧ S.readAxis .xRot = S.xRotAxis ∧
    S.readAxis .yRot = S.yRotAxis ∧ S.readAxis .zRot = S.zRotAxis ∧ S.readAxis .throttle = S.throttle ∧
    S.readAxis .rudder = S.rudder ∧ S.readAxis .hat1 = S.hatSw1 ∧ S.readAxis .hat2 = S.hatSw2)

/-- Words written out from the encodings of R42 decode to the commands they stand for. -/
def Obligations.WrittenWordsDecode : Prop :=
  decode 0x00000 = .beginOp ∧ decode 0x1FFFF = .endOp ∧ decode 0x203FF = .buttonDown 3 ∧
  decode 0x31F00 = .buttonUp 31 ∧ decode 0x40800 = .buttonPress 8 ∧ decode 0x5091A = .axisSet 9 0x1A ∧
  decode 0x600AB = .axisReset 0 ∧ decode 0x7ABCD = .releaseAll ∧ decode 0xA0310 = .reserved

/-- The assembler forms of R50 and its three examples; lines that fit no form have no word. That blanks may stand
around operands and that a line outside the forms has no word is the model's choice (log entry 17). -/
def Obligations.AssemblerForms : Prop :=
  assemble "BEGIN" = some 0x00000 ∧ assemble "END" = some 0x10000 ∧ assemble "RELEASE_ALL" = some 0x70000 ∧
  assemble "BUTTON_DOWN 3" = some 0x20300 ∧ assemble "BUTTON_UP 0x1F" = some 0x31F00 ∧
  assemble "BUTTON_PRESS 255" = some 0x4FF00 ∧ assemble "AXIS_SET AXIS_X, 0x10" = some 0x50010 ∧
  assemble "AXIS_SET 99, 0x77" = some 0x56377 ∧ assemble "AXIS_RESET AXIS_HAT2" = some 0x60900 ∧
  assemble "BUTTON_DOWN 256" = none ∧ assemble "AXIS_SET AXIS_X" = none

/-! ### A step -/

/-- When the caller presents a word, the step is the decoded command's, with that input consumed. -/
def Obligations.StepRunsThePresentedCommand : Prop :=
  ∀ (s : State) (w : CmdWord) (rest : List Input), s.caller = .command w :: rest →
    step s = exec (decode w) { s with caller := rest }

/-- A word placed where the host places it is the next command run, and the host's decoder reads it alike. That a
placed word goes ahead of everything the caller still has to present, and so runs next, is the model's choice (log
entry 2), and so is what the host's decoder reads as a command word (log entry 21): no rule of the spec speaks of
placing a word. -/
def Obligations.PlacedWordRunsNext : Prop :=
  ∀ (s : State) (nbits w : Nat), w < 2 ^ 20 →
    decodeTableWord nbits w = some (decode (BitVec.ofNat 20 w)) ∧
    step (s.withFetchWord nbits w) = exec (decode (BitVec.ofNat 20 w)) s

/-- From R102: if no command arrives, nothing happens and nothing is sent. -/
def Obligations.IdleBlockDoesNothing : Prop :=
  ∀ s : State, s.caller = [] → step s = .next s

/-- From R60: there is no third outcome; every command in every state, and every step, gives a next state. The premise
is `TRANSPORT_ACCEPTS` (R116, R121), built into the atomic step by the model's choice (log entry 7). -/
def Obligations.EveryStepCompletes : Prop :=
  (∀ (i : Instr) (s : State), Completes (exec i s)) ∧ (∀ s : State, Completes (step s))

/-! ### The report -/

/-- R55, R26, R29: the thirteen bytes of the report, the first four also as one little-endian write, byte 6 also
by the source's formula, and the two worked examples. -/
def Obligations.ReportLayout : Prop :=
  (∀ S : JoystickState,
    (encodeReport S).toList =
      [S.buttons.extractLsb' 0 8, S.buttons.extractLsb' 8 8, S.buttons.extractLsb' 16 8, S.buttons.extractLsb' 24 8,
       S.throttle, S.rudder, S.hatSw2.extractLsb' 0 4 ++ S.hatSw1.extractLsb' 0 4,
       S.xAxis, S.yAxis, S.zAxis, S.xRotAxis, S.yRotAxis, S.zRotAxis]) ∧
  (∀ (S : JoystickState) (r : Report), ∃ r', memWrite r 0 4 S.buttons.toNat = some r' ∧
    ∀ k, k < 4 → r'[k]? = (encodeReport S)[k]?) ∧
  (∀ S : JoystickState, (encodeReport S)[6]? = some ((S.hatSw2 <<< 4) ||| (S.hatSw1 &&& 0x0F#8))) ∧
  (∀ S : JoystickState, S.hatSw1 = 5 → S.hatSw2 = 3 → (encodeReport S)[6]? = some 0x35) ∧
  (encodeReport .rest).toList = [0x00, 0x00, 0x00, 0x00, 0x00, 0x00, 0x00, 0x80, 0x80, 0x00, 0x00, 0x00, 0x00]

/-- Button index i is bit i mod 8 of byte i div 8 of the report: rule 28 of spec/20_memory.md, which the spec marks
as its own inference from R27 and R11. -/
def Obligations.ButtonBitInReport : Prop :=
  ∀ (S : JoystickState) (i : Nat), i < 32 →
    ∃ b, (encodeReport S)[i / 8]? = some b ∧ b.getLsbD (i % 8) = S.buttons.getLsbD i

/-- Two states have the same report exactly when they agree on the 104 reported bits, and every 13-byte value
is the report of exactly one state whose unreported hat bits are 0: sentences of rule 56 of
spec/40_report_encoder.md that the spec marks as its own inference from R55. -/
def Obligations.ReportShowsExactlyTheReportedBits : Prop :=
  (∀ S T : JoystickState, encodeReport S = encodeReport T ↔
    (S.buttons = T.buttons ∧
      (∀ id : AxisId, id ≠ .hat1 → id ≠ .hat2 → S.readAxis id = T.readAxis id) ∧
      S.hatSw1.extractLsb' 0 4 = T.hatSw1.extractLsb' 0 4 ∧
      S.hatSw2.extractLsb' 0 4 = T.hatSw2.extractLsb' 0 4)) ∧
  (∀ r : Report, ∃ S : JoystickState, S.hatSw1.toNat < 16 ∧ S.hatSw2.toNat < 16 ∧ encodeReport S = r ∧
    ∀ T : JoystickState, T.hatSw1.toNat < 16 → T.hatSw2.toNat < 16 → encodeReport T = r → T = S)

/-- The report is what writing every field at its fixed offset into any buffer gives: the button mask as one 4-byte
little-endian write, the others as single bytes (R26, R27, R55). -/
def Obligations.ReportIsItsFieldsWritten : Prop :=
  ∀ (S : JoystickState) (r : Report),
    ((memWrite r 0 4 S.buttons.toNat).bind fun r => (memWrite r 4 1 S.throttle.toNat).bind fun r =>
      (memWrite r 5 1 S.rudder.toNat).bind fun r =>
      (memWrite r 6 1 (S.hatSw1.toNat % 16 + 16 * (S.hatSw2.toNat % 16))).bind fun r =>
      (memWrite r 7 1 S.xAxis.toNat).bind fun r => (memWrite r 8 1 S.yAxis.toNat).bind fun r =>
      (memWrite r 9 1 S.zAxis.toNat).bind fun r => (memWrite r 10 1 S.xRotAxis.toNat).bind fun r =>
      (memWrite r 11 1 S.yRotAxis.toNat).bind fun r => memWrite r 12 1 S.zRotAxis.toNat) =
    some (encodeReport S)

/-- Reading a range of the buffer back after writing it gives the value written, and every other offset keeps its
byte (R27, with MemWrite and MemRead of spec/00_scope.md section 4). The second clause, that an access which touches
an offset of 13 or above answers none, is the model's (log entry 18, DEDUCED): R25 says only that those offsets do not
exist. -/
def Obligations.BufferReadAfterWrite : Prop :=
  (∀ (r : Report) (k n v : Nat), k + n ≤ 13 →
    ∃ r', memWrite r k n v = some r' ∧ memRead r' k n = some (v % 256 ^ n) ∧
      ∀ j, j < k ∨ k + n ≤ j → r'[j]? = r[j]?) ∧
  (∀ (r : Report) (k n v : Nat), 0 < n → 13 < k + n → memWrite r k n v = none ∧ memRead r k n = none)

/-- R62: byte k of the report is bits 8k+7 to 8k of tx_data, field by field, and the rest report as a number. -/
def Obligations.TxDataLanes : Prop :=
  (∀ (r : Report) (k : Nat), k < 13 → r[k]? = some ((txData r).extractLsb' (8 * k) 8)) ∧
  (∀ S : JoystickState,
    (txData (encodeReport S)).extractLsb' 0 32 = S.buttons ∧
    (txData (encodeReport S)).extractLsb' 32 8 = S.throttle ∧
    (txData (encodeReport S)).extractLsb' 40 8 = S.rudder ∧
    (txData (encodeReport S)).extractLsb' 48 4 = S.hatSw1.extractLsb' 0 4 ∧
    (txData (encodeReport S)).extractLsb' 52 4 = S.hatSw2.extractLsb' 0 4 ∧
    (txData (encodeReport S)).extractLsb' 56 8 = S.xAxis ∧
    (txData (encodeReport S)).extractLsb' 64 8 = S.yAxis ∧
    (txData (encodeReport S)).extractLsb' 72 8 = S.zAxis ∧
    (txData (encodeReport S)).extractLsb' 80 8 = S.xRotAxis ∧
    (txData (encodeReport S)).extractLsb' 88 8 = S.yRotAxis ∧
    (txData (encodeReport S)).extractLsb' 96 8 = S.zRotAxis) ∧
  txData (encodeReport .rest) = 0x00000000808000000000000000#104

/-- From R57: one transmit appends the report ID, the report of the state as it is, and the length 13 to the output
trace, and changes no register. -/
def Obligations.TransmitAppendsTheReport : Prop :=
  ∀ s : State, s.transmit =
    { s with sent := s.sent ++ [{ reportId := Config.reportId, buffer := encodeReport s.joystick, length := 13 }] }

/-- From R31, R33 and R59: every report of a command is that of the whole state as it stands after the mutation it
reports and before any later one: the events added are the reports of the states that the command's mutations pass
through, one each, in order. The last one, if any, is the report of the state the command ends in; without a report
no register has changed. -/
def Obligations.ReportsAreSnapshots : Prop :=
  ∀ (i : Instr) (s : State), ∃ t, exec i s = .next t ∧
    t.sent = s.sent ++ (statesAfter s.joystick (planOf i).phases).map
      (fun S => { reportId := Config.reportId, buffer := encodeReport S, length := 13 }) ∧
    t.joystick = finalState s.joystick (planOf i).phases ∧
    (∀ S, (statesAfter s.joystick (planOf i).phases).getLast? = some S → S = t.joystick) ∧
    ((planOf i).phases = [] → t.joystick = s.joystick)

/-- R34: how many transmit events each command has, by outcome; reset has none. -/
def Obligations.TransmitCounts : Prop :=
  (∀ (i : Instr) (s t : State), exec i s = .next t →
    ∃ events, t.sent = s.sent ++ events ∧ events.length = transmitCount i) ∧
  (∀ s : State, s.resetBlock.sent = s.sent)

/-! ### Buttons -/

/-- R69: the three button operations, in range and out of range, in every state. -/
def Obligations.ButtonOperations : Prop :=
  ∀ (s : State) (a : Byte),
    (a.toNat < 32 →
      exec (.buttonDown a) s = .next (s.after { s.joystick with buttons := s.joystick.buttons ||| (1#32 <<< a.toNat) }
        [{ s.joystick with buttons := s.joystick.buttons ||| (1#32 <<< a.toNat) }] .ok) ∧
      exec (.buttonUp a) s = .next (s.after { s.joystick with buttons := s.joystick.buttons &&& ~~~(1#32 <<< a.toNat) }
        [{ s.joystick with buttons := s.joystick.buttons &&& ~~~(1#32 <<< a.toNat) }] .ok) ∧
      exec (.buttonPress a) s = .next (s.after
        { s.joystick with buttons := s.joystick.buttons &&& ~~~(1#32 <<< a.toNat) }
        [{ s.joystick with buttons := s.joystick.buttons ||| (1#32 <<< a.toNat) },
         { s.joystick with buttons := s.joystick.buttons &&& ~~~(1#32 <<< a.toNat) }] .ok)) ∧
    (32 ≤ a.toNat →
      exec (.buttonDown a) s = .next (s.after s.joystick [] .fail) ∧
      exec (.buttonUp a) s = .next (s.after s.joystick [] .fail) ∧
      exec (.buttonPress a) s = .next (s.after s.joystick [] .fail))

/-- R68: a button index of 32 or more fails before anything is done, for all three operations and every such
index; it is not taken modulo 32. -/
def Obligations.ButtonIndexOutOfRangeFails : Prop :=
  ∀ (s : State) (a : Byte), 32 ≤ a.toNat → ∀ i ∈ [Instr.buttonDown a, Instr.buttonUp a, Instr.buttonPress a],
    exec i s = .next { s with results := s.results ++ [.fail] }

/-- BUTTON_DOWN sets exactly bit i of the encoded button mask and BUTTON_UP clears exactly bit i; every other bit
of the report is as the report of the state before (R65, R66, R69). -/
def Obligations.ButtonWritesExactlyOneReportBit : Prop :=
  ∀ (s : State) (a : Byte), a.toNat < 32 →
    ∃ d u : State, exec (.buttonDown a) s = .next d ∧ exec (.buttonUp a) s = .next u ∧
      ∀ k j, k < 13 → j < 8 → ∀ b bd bu, (encodeReport s.joystick)[k]? = some b →
        (encodeReport d.joystick)[k]? = some bd → (encodeReport u.joystick)[k]? = some bu →
        (bd.getLsbD j = if k = a.toNat / 8 ∧ j = a.toNat % 8 then true else b.getLsbD j) ∧
        (bu.getLsbD j = if k = a.toNat / 8 ∧ j = a.toNat % 8 then false else b.getLsbD j)

/-- BUTTON_PRESS sends exactly two reports, which differ in exactly bit i mod 8 of byte i div 8: 1 in the first, 0
in the second (R67). -/
def Obligations.PressReportsDifferInOneBit : Prop :=
  ∀ (s : State) (a : Byte), a.toNat < 32 →
    ∃ (t : State) (e₁ e₂ : TxEvent), exec (.buttonPress a) s = .next t ∧ t.sent = s.sent ++ [e₁, e₂] ∧
      ∀ k j, k < 13 → j < 8 → ∀ b₁ b₂, e₁.buffer[k]? = some b₁ → e₂.buffer[k]? = some b₂ →
        (k = a.toNat / 8 ∧ j = a.toNat % 8 → b₁.getLsbD j = true ∧ b₂.getLsbD j = false) ∧
        (¬ (k = a.toNat / 8 ∧ j = a.toNat % 8) → b₁.getLsbD j = b₂.getLsbD j)

/-- BUTTON_PRESS is BUTTON_DOWN followed at once by BUTTON_UP, on the registers and on the transport, with one
result, the down phase's: for every index, in range or not (R67; the relation is named in R51 (b)). -/
def Obligations.PressIsDownThenUp : Prop :=
  ∀ (s : State) (a : Byte), ∃ d u p : State,
    exec (.buttonDown a) s = .next d ∧ exec (.buttonUp a) d = .next u ∧ exec (.buttonPress a) s = .next p ∧
    p.joystick = u.joystick ∧ p.sent = u.sent ∧ p.results = d.results ∧ p.caller = s.caller

/-! ### Axes -/

/-- AXIS_SET, identifier by identifier: exactly the named field takes all 8 bits of the value, one report, OK; an
identifier of 10 or more changes nothing (R75, R80). -/
def Obligations.AxisSetWritesTheField : Prop :=
  ∀ (s : State) (v : Byte),
    (let S := s.joystick
     exec (.axisSet 0 v) s = .next (s.after { S with xAxis := v } [{ S with xAxis := v }] .ok) ∧
     exec (.axisSet 1 v) s = .next (s.after { S with yAxis := v } [{ S with yAxis := v }] .ok) ∧
     exec (.axisSet 2 v) s = .next (s.after { S with zAxis := v } [{ S with zAxis := v }] .ok) ∧
     exec (.axisSet 3 v) s = .next (s.after { S with xRotAxis := v } [{ S with xRotAxis := v }] .ok) ∧
     exec (.axisSet 4 v) s = .next (s.after { S with yRotAxis := v } [{ S with yRotAxis := v }] .ok) ∧
     exec (.axisSet 5 v) s = .next (s.after { S with zRotAxis := v } [{ S with zRotAxis := v }] .ok) ∧
     exec (.axisSet 6 v) s = .next (s.after { S with throttle := v } [{ S with throttle := v }] .ok) ∧
     exec (.axisSet 7 v) s = .next (s.after { S with rudder := v } [{ S with rudder := v }] .ok) ∧
     exec (.axisSet 8 v) s = .next (s.after { S with hatSw1 := v } [{ S with hatSw1 := v }] .ok) ∧
     exec (.axisSet 9 v) s = .next (s.after { S with hatSw2 := v } [{ S with hatSw2 := v }] .ok)) ∧
    (∀ a : Byte, 10 ≤ a.toNat → exec (.axisSet a v) s = .next (s.after s.joystick [] .fail))

/-- AXIS_RESET, identifier by identifier: exactly the named field takes its rest value, 0x80 for X and Y and 0x00
for the other eight, one report, OK; an identifier of 10 or more changes nothing (R76, R80, R14). -/
def Obligations.AxisResetWritesTheRestValue : Prop :=
  ∀ s : State,
    (let S := s.joystick
     exec (.axisReset 0) s = .next (s.after { S with xAxis := 0x80 } [{ S with xAxis := 0x80 }] .ok) ∧
     exec (.axisReset 1) s = .next (s.after { S with yAxis := 0x80 } [{ S with yAxis := 0x80 }] .ok) ∧
     exec (.axisReset 2) s = .next (s.after { S with zAxis := 0 } [{ S with zAxis := 0 }] .ok) ∧
     exec (.axisReset 3) s = .next (s.after { S with xRotAxis := 0 } [{ S with xRotAxis := 0 }] .ok) ∧
     exec (.axisReset 4) s = .next (s.after { S with yRotAxis := 0 } [{ S with yRotAxis := 0 }] .ok) ∧
     exec (.axisReset 5) s = .next (s.after { S with zRotAxis := 0 } [{ S with zRotAxis := 0 }] .ok) ∧
     exec (.axisReset 6) s = .next (s.after { S with throttle := 0 } [{ S with throttle := 0 }] .ok) ∧
     exec (.axisReset 7) s = .next (s.after { S with rudder := 0 } [{ S with rudder := 0 }] .ok) ∧
     exec (.axisReset 8) s = .next (s.after { S with hatSw1 := 0 } [{ S with hatSw1 := 0 }] .ok) ∧
     exec (.axisReset 9) s = .next (s.after { S with hatSw2 := 0 } [{ S with hatSw2 := 0 }] .ok)) ∧
    (∀ a : Byte, 10 ≤ a.toNat → exec (.axisReset a) s = .next (s.after s.joystick [] .fail))

/-- R80: an unknown identifier changes no state and sends nothing, for both operations. -/
def Obligations.UnknownAxisFails : Prop :=
  ∀ (s : State) (a v : Byte), 10 ≤ a.toNat →
    exec (.axisSet a v) s = .next { s with results := s.results ++ [.fail] } ∧
    exec (.axisReset a) s = .next { s with results := s.results ++ [.fail] }

/-- R79: AXIS_SET leaves the selected field at the value, every other field and the buttons as they were, and its
one report can differ from the report of the state before only in the field's own byte, or, for a hat, in its own
nibble of byte 6. -/
def Obligations.AxisSetFrame : Prop :=
  ∀ (s : State) (id : AxisId) (v : Byte), ∃ t : State, exec (.axisSet id.code v) s = .next t ∧
    t.joystick.readAxis id = v ∧ (∀ id', id' ≠ id → t.joystick.readAxis id' = s.joystick.readAxis id') ∧
    t.joystick.buttons = s.joystick.buttons ∧
    t.sent = s.sent ++ [{ reportId := Config.reportId, buffer := encodeReport t.joystick, length := 13 }] ∧
    ∀ k j, k < 13 → j < 8 → ∀ b b', (encodeReport s.joystick)[k]? = some b → (encodeReport t.joystick)[k]? = some b' →
      b.getLsbD j ≠ b'.getLsbD j → k = reportByte id ∧ reportBit id j = true

/-- R78: a hat identifier stores the whole value; the low four bits reach its own nibble of byte 6 and the other
hat's nibble is as before. -/
def Obligations.HatsStoreAllReportLow : Prop :=
  ∀ (s : State) (v : Byte), ∃ t u : State,
    exec (.axisSet 8 v) s = .next t ∧ exec (.axisSet 9 v) s = .next u ∧
    t.joystick.hatSw1 = v ∧ t.joystick.hatSw2 = s.joystick.hatSw2 ∧
    u.joystick.hatSw2 = v ∧ u.joystick.hatSw1 = s.joystick.hatSw1 ∧
    (encodeReport t.joystick)[6]? = some (s.joystick.hatSw2.extractLsb' 0 4 ++ v.extractLsb' 0 4) ∧
    (encodeReport u.joystick)[6]? = some (v.extractLsb' 0 4 ++ s.joystick.hatSw1.extractLsb' 0 4)

/-- AXIS_RESET is AXIS_SET of the field's rest value, in every respect: corner case (iv) of R76, which the spec
marks as its own inference; an unknown identifier fails alike under both (R80). -/
def Obligations.AxisResetIsAxisSetOfRest : Prop :=
  (∀ (s : State) (id : AxisId), exec (.axisReset id.code) s = exec (.axisSet id.code (JoystickState.rest.readAxis id)) s) ∧
  (∀ (s : State) (a v : Byte), 10 ≤ a.toNat → exec (.axisReset a) s = exec (.axisSet a v) s)

/-! ### Lifecycle -/

/-- RELEASE_ALL and BEGIN reset every field and send the rest report; END does nothing; all three succeed (R85,
R86, R87; the spec marks its summary in rule 89 as its own inference from these). -/
def Obligations.LifecycleOperations : Prop :=
  (∀ s : State,
    exec .releaseAll s = .next (s.after .rest [.rest] .ok) ∧
    exec .beginOp s = .next (s.after .rest [.rest] .ok) ∧
    exec .endOp s = .next (s.after s.joystick [] .ok)) ∧
  (encodeReport .rest).toList = [0x00, 0x00, 0x00, 0x00, 0x00, 0x00, 0x00, 0x80, 0x80, 0x00, 0x00, 0x00, 0x00]

/-- R47: a word with op[3] = 1 decodes to reserved whatever its other bits, and is rejected: no state change, no
transmit, FAIL. -/
def Obligations.ReservedOpcodesFail : Prop :=
  ∀ (s : State) (w : CmdWord), w.getLsbD 19 = true →
    decode w = .reserved ∧ exec (decode w) s = .next { s with results := s.results ++ [.fail] }

/-! ### Results, failures and what is written -/

/-- R94: the result depends on the command only, and is FAIL exactly for a button index of 32 or more, an axis
identifier of 10 or more, and a reserved opcode. -/
def Obligations.ResultIsOkExactlyWhenInRange : Prop :=
  ∀ (i : Instr) (s : State), ∃ t, exec i s = .next t ∧
    t.results = s.results ++ [if i.WellFormed then .ok else .fail] ∧
    (i.WellFormed = false ↔
      (∃ a, (i = .buttonDown a ∨ i = .buttonUp a ∨ i = .buttonPress a) ∧ 32 ≤ a.toNat) ∨
      (∃ a, ((∃ v, i = .axisSet a v) ∨ i = .axisReset a) ∧ 10 ≤ a.toNat) ∨
      i = .reserved)

/-- R96: whatever the cause, a command that fails leaves every register as it was, sends no report and returns
FAIL; and no command returns FAIL otherwise. -/
def Obligations.FailureChangesNothing : Prop :=
  (∀ (i : Instr) (s : State), i.WellFormed = false → exec i s = .next (s.after s.joystick [] .fail)) ∧
  ∀ (i : Instr) (s t : State), exec i s = .next t → t.results = s.results ++ [.fail] →
    t = { s with results := s.results ++ [.fail] }

/-- From R17: which command can change which register, and to what; commands leave the caller's inputs alone. -/
def Obligations.WriteSets : Prop :=
  ∀ (i : Instr) (s t : State), exec i s = .next t →
    t.caller = s.caller ∧
    (∀ j, j < 32 → t.joystick.buttons.getLsbD j ≠ s.joystick.buttons.getLsbD j →
      (i = .buttonDown (BitVec.ofNat 8 j) ∧ t.joystick.buttons.getLsbD j = true) ∨
      ((i = .buttonUp (BitVec.ofNat 8 j) ∨ i = .buttonPress (BitVec.ofNat 8 j) ∨ i = .releaseAll ∨ i = .beginOp) ∧
        t.joystick.buttons.getLsbD j = false)) ∧
    (∀ id : AxisId, t.joystick.readAxis id ≠ s.joystick.readAxis id →
      i = .axisSet id.code (t.joystick.readAxis id) ∨
      ((i = .axisReset id.code ∨ i = .releaseAll ∨ i = .beginOp) ∧
        t.joystick.readAxis id = JoystickState.rest.readAxis id))

/-! ### Reset -/

/-- R14, R16: after reset every register holds its rest value. -/
def Obligations.ResetValues : Prop :=
  State.reset.joystick =
    { buttons := 0x00000000, xAxis := 0x80, yAxis := 0x80, zAxis := 0x00, xRotAxis := 0x00, yRotAxis := 0x00,
      zRotAxis := 0x00, throttle := 0x00, rudder := 0x00, hatSw1 := 0x00, hatSw2 := 0x00 } ∧
  State.reset.joystick = .rest ∧ ∀ id : AxisId, axisRest id = State.reset.joystick.readAxis id

/-- The reset event sets every register to rest, from any state, and neither transmits nor returns a result
(R107). -/
def Obligations.ResetEvent : Prop :=
  ∀ (s : State) (rest : List Input), s.caller = .reset :: rest →
    step s = .next { joystick := .rest, caller := rest, sent := s.sent, results := s.results }

/-- Reset in the middle of a command: of the reports the command sends when it is not interrupted, exactly those
already handed over are sent, no result is returned, and the registers are at rest (R107). -/
def Obligations.ResetAbandonsTheCommand : Prop :=
  ∀ (s : State) (w : CmdWord) (n : Nat) (rest : List Input), s.caller = .cutShort w n :: rest →
    ∃ t, exec (decode w) { s with caller := rest } = .next t ∧
      step s = .next { joystick := .rest, caller := rest, sent := t.sent.take (s.sent.length + n),
                       results := s.results }

/-! ### Runs -/

/-- From R120, R121, R52: the caller may issue any words in any order; the run completes, with one result per command,
in order, each depending on its word only. The premise is `TRANSPORT_ACCEPTS` (R116, R121; decision D14): the atomic step
has it built in, which is the model's choice (log entry 7, unsafe for exactly this claim). -/
def Obligations.AnyWordsRunToCompletion : Prop :=
  ∀ (s : State) (words : List CmdWord), ∃ t, RunsTo s (words.map .command) t ∧ t.caller = [] ∧
    t.results = s.results ++ words.map (fun w => if (decode w).WellFormed then .ok else .fail)

/-- R110: until a command that mutates succeeds, the transport has received nothing; the first report it receives
is that command's, as if it had been the first command after reset; when it is BEGIN, it is the rest report. -/
def Obligations.NothingSentBeforeTheFirstMutation : Prop :=
  ∀ inputs : List Input, inputs.all silent = true →
    (∃ t, RunsTo State.reset inputs t ∧ t.sent = [] ∧ t.joystick = .rest) ∧
    (∀ w : CmdWord, ∃ t u, RunsTo State.reset (inputs ++ [.command w]) t ∧ exec (decode w) State.reset = .next u ∧
      t.sent = u.sent ∧
      (decode w = .beginOp → t.sent =
        [{ reportId := Config.reportId, buffer := #v[0, 0, 0, 0, 0, 0, 0, 0x80, 0x80, 0, 0, 0, 0], length := 13 }]))

/-- R98: a failed command might as well not have been issued: taking every failing command out of a run leaves
its final registers and its reports as they are, and takes out of its results the FAILs, nothing else. -/
def Obligations.FailedCommandsLeaveNoTrace : Prop :=
  ∀ (s : State) (inputs : List Input), ∃ t u, RunsTo s inputs t ∧
    RunsTo s (inputs.filter (fun i => !failing i)) u ∧
    t.joystick = u.joystick ∧ t.sent = u.sent ∧
    ∃ answers, t.results = s.results ++ answers ∧ u.results = s.results ++ answers.filter (fun r => decide (r = .ok))

/-- From R20 and R22: nothing is carried over but the eleven registers: two runs from states with equal registers,
whatever was sent or answered before, add the same reports and the same results and end with equal registers. -/
def Obligations.OnlyTheRegistersCarryOver : Prop :=
  ∀ (s s' : State) (inputs : List Input), s.joystick = s'.joystick →
    ∃ t t' events answers, RunsTo s inputs t ∧ RunsTo s' inputs t' ∧ t.joystick = t'.joystick ∧
      t.sent = s.sent ++ events ∧ t'.sent = s'.sent ++ events ∧
      t.results = s.results ++ answers ∧ t'.results = s'.results ++ answers

/-- An invariant every step keeps: every transmit event carries `REPORT_ID` and the length 13 (R57). -/
def Obligations.StepKeepsTransmitsWellFormed : Prop :=
  ∀ s t : State, TransmitsWellFormed s → step s = .next t → TransmitsWellFormed t

/-- An invariant every step keeps while the environment asserts no reset: the last report the transport received,
if any, is the report of the registers as they are now (R31, R59, R99). -/
def Obligations.StepKeepsTransportUpToDate : Prop :=
  ∀ s t : State, commandsOnly s.caller = true ∧ UpToDate s → step s = .next t →
    commandsOnly t.caller = true ∧ UpToDate t

/-- Both invariants hold right after reset. -/
def Obligations.ResetMeetsTheInvariants : Prop :=
  TransmitsWellFormed State.reset ∧ commandsOnly State.reset.caller = true ∧ UpToDate State.reset

/-! ### Ports -/

/-- From R60, R63, R107, R120: at the ports, whatever the environment does on the input pins in every cycle, reset
included, and however many cycles the block takes inside, the reports handed over, the results returned and, once
the block is idle, the registers are those of the atomic step. That one cycle of rst = 1 is a whole reset, with no
event in that cycle, is the model's choice (log entry 8), and so are the cycles in which things happen (log entries 9,
22 and 24). -/
def Obligations.PortsRefineTheAtomicStep : Prop :=
  ∀ (cycles : List (PortIn × Bool)) (p : PortState) (log : PortLog),
    portRun .afterReset .empty cycles = (p, log) →
    ∃ t, RunsTo State.reset log.atomicInputs t ∧ t.sent = log.sent ∧ t.results = log.results ∧
      (p.ctl = .idle ↔ log.current = none) ∧ (p.ctl = .idle → t.joystick = p.joystick)

/-- From R63: while a command is in progress cmd_ready is 0, nothing is accepted, and the registers change only by the
command's own next mutation or by reset. That this takes in the very cycle in which resp_valid is 1 is the model's
choice (log entry 24). -/
def Obligations.BusyBlockAcceptsNothing : Prop :=
  ∀ (p : PortState) (pin : PortIn) (go : Bool), p.ctl ≠ .idle →
    (p.pins pin.rst).cmdReady = false ∧ p.accepted pin = none ∧
    ((p.cycle pin go).joystick ≠ p.joystick → pin.rst = true ∨
      ∃ m rest result, p.ctl = .busy (m :: rest) result ∧ (p.cycle pin go).joystick = m.apply p.joystick)

/-- R116: a report that the transport does not take stays presented and unchanged, and the block accepts nothing
and returns nothing, however long this lasts. -/
def Obligations.BlockIsHeldByItsTransport : Prop :=
  ∀ (p : PortState) (log : PortLog) (todo : List Mutation) (result : Result) (cycles : List (PortIn × Bool)),
    p.ctl = .sending todo result → (∀ c ∈ cycles, c.1.rst = false ∧ c.1.txReady = false) →
    (portRun p log cycles).1 = p ∧ (portRun p log cycles).2.sent = log.sent ∧
    (portRun p log cycles).2.results = log.results ∧
    (p.pins false).cmdReady = false ∧ (p.pins false).txValid = true ∧
    (p.pins false).txDataPin = some (txData (encodeReport p.joystick))

/-- With `TRANSPORT_ACCEPTS` in its strongest form (tx_ready always 1), no reset, and a block that advances in
every cycle, a command's result is returned within seven cycles of its acceptance, that cycle included. That the
count is seven is the model's (log entries 9 and 22): the spec gives no cycle counts (R118). -/
def Obligations.CommandCompletesWhenTransportAccepts : Prop :=
  ∀ (p : PortState) (log : PortLog) (first : PortIn) (cycles : List (PortIn × Bool)),
    p.ctl = .idle → first.rst = false → first.cmdValid = true → cycles.length = 6 →
    (∀ c ∈ cycles, c.1.rst = false ∧ c.1.txReady = true ∧ c.2 = true) →
    ∃ more, (portRun p log ((first, true) :: cycles)).2.results =
      log.results ++ (if (decode first.cmd).WellFormed then Result.ok else Result.fail) :: more

/-- From R107 and R108: while rst is 1 the block is ready for nothing and presents nothing, no event takes place, and the
registers go to rest, from every port state. That one cycle of rst = 1 is a whole reset, that nothing is handed over in
that very cycle, and that the registers are at rest from the end of it, is the model's choice (log entry 8): R108 leaves
open whether rst is sampled and how long it is held. -/
def Obligations.ResetAtThePorts : Prop :=
  ∀ (p : PortState) (pin : PortIn) (go : Bool), pin.rst = true →
    (p.pins pin.rst).cmdReady = false ∧ (p.pins pin.rst).txValid = false ∧ (p.pins pin.rst).respValid = false ∧
    p.accepted pin = none ∧ p.handedOver pin = none ∧ p.responded pin = none ∧
    (p.cycle pin go).joystick = .rest ∧ (p.cycle pin go).ctl = .idle

/-- R58: the transport's status changes nothing: with any other status in any cycle, a port run has the same
registers, reports and results. -/
def Obligations.TransportStatusIsIgnored : Prop :=
  ∀ (p : PortState) (log : PortLog) (cycles : List (PortIn × Bool)) (status : PortIn × Bool → Bool),
    portRun p log (cycles.map fun c => ({ c.1 with txStatus := status c }, c.2)) = portRun p log cycles

/-- From R61 and R52: while a result is returned resp_valid is 1 and resp_ok is the result's bit; tx_report_id and tx_len
are constant. The first clause, that a cycle with resp_valid 1 is followed by one with 0, is the model's choice (log
entries 9 and 24) and stronger than R61, which asks for one cycle per accepted command: a block that accepts a command
in the response cycle and answers it in the next would have two such cycles in a row. -/
def Obligations.ResponseAndConstantPins : Prop :=
  (∀ (p : PortState) (pin : PortIn) (go : Bool), (p.pins false).respValid = true →
    ((p.cycle pin go).pins false).respValid = false) ∧
  (∀ (p : PortState) (r : Result), p.ctl = .responding r →
    (p.pins false).respValid = true ∧
    (p.pins false).respOk = some (match r with | .ok => 1#1 | .fail => 0#1)) ∧
  (∀ (p : PortState) (rst : Bool), (p.pins rst).txReportId = Config.reportId ∧ (p.pins rst).txLen = 13#4)

/-- The refinement as a step lemma: one cycle, with any values on the input pins and the block advancing or not, keeps
the agreement of the port machine with the atomic run (R60, R63, R107). What a cycle with rst = 1 does is the model's
choice (log entry 8). -/
def Obligations.PortCycleKeepsTheAgreement : Prop :=
  ∀ (p : PortState) (log : PortLog) (pin : PortIn) (go : Bool),
    PortsAgree p log → PortsAgree (p.cycle pin go) (log.record p pin)

/-- Right after reset, with nothing seen, the port machine agrees with the atomic machine right after reset (R107). -/
def Obligations.PortsAgreeAfterReset : Prop := PortsAgree .afterReset .empty
end

