-- ==== Sys2Proof/Laws/Bits.lean ====
section
/-! SUPPORT. Slices of concatenations, for command words, report bytes and tx_data. -/

namespace Sys2Proof.Laws

theorem extract_append_low {n m : Nat} (x : BitVec n) (y : BitVec m) : (x ++ y).extractLsb' 0 m = y := by
  apply BitVec.eq_of_getLsbD_eq
  intro j hj
  rw [BitVec.getLsbD_extractLsb', BitVec.getLsbD_append]
  simp [hj]

theorem extract_append_high {n m : Nat} (x : BitVec n) (y : BitVec m) (k l : Nat) :
    (x ++ y).extractLsb' (m + k) l = x.extractLsb' k l := by
  apply BitVec.eq_of_getLsbD_eq
  intro j hj
  rw [BitVec.getLsbD_extractLsb', BitVec.getLsbD_append, BitVec.getLsbD_extractLsb']
  have h1 : ¬ m + k + j < m := by omega
  have h2 : m + k + j - m = k + j := by omega
  simp [h1, h2]

theorem extract_whole {n : Nat} (x : BitVec n) : x.extractLsb' 0 n = x := by
  apply BitVec.eq_of_getLsbD_eq
  intro j hj
  rw [BitVec.getLsbD_extractLsb']
  simp [hj]

theorem extract_extract {n : Nat} (x : BitVec n) (k m j l : Nat) (h : j + l ≤ m) :
    (x.extractLsb' k m).extractLsb' j l = x.extractLsb' (k + j) l := by
  apply BitVec.eq_of_getLsbD_eq
  intro i hi
  simp only [BitVec.getLsbD_extractLsb']
  have h1 : j + i < m := by omega
  have h2 : k + j + i = k + (j + i) := by omega
  simp [hi, h1, h2]

end Sys2Proof.Laws
end

