-- ==== Sys2Proof/Laws/State.lean ====
section
/-! SUPPORT. What each shared operation leaves in each field of the state: one lemma per field per update. -/

namespace Sys2Proof.Machine

@[simp] theorem State.mutate_joystick (s : State) (m : Mutation) : (s.mutate m).joystick = m.apply s.joystick := rfl
@[simp] theorem State.mutate_caller (s : State) (m : Mutation) : (s.mutate m).caller = s.caller := rfl
@[simp] theorem State.mutate_sent (s : State) (m : Mutation) : (s.mutate m).sent = s.sent := rfl
@[simp] theorem State.mutate_results (s : State) (m : Mutation) : (s.mutate m).results = s.results := rfl

@[simp] theorem State.transmit_joystick (s : State) : s.transmit.joystick = s.joystick := rfl
@[simp] theorem State.transmit_caller (s : State) : s.transmit.caller = s.caller := rfl
@[simp] theorem State.transmit_sent (s : State) : s.transmit.sent = s.sent ++ [txEvent s.joystick] := rfl
@[simp] theorem State.transmit_results (s : State) : s.transmit.results = s.results := rfl

@[simp] theorem State.answer_joystick (s : State) (r : Result) : (s.answer r).joystick = s.joystick := rfl
@[simp] theorem State.answer_caller (s : State) (r : Result) : (s.answer r).caller = s.caller := rfl
@[simp] theorem State.answer_sent (s : State) (r : Result) : (s.answer r).sent = s.sent := rfl
@[simp] theorem State.answer_results (s : State) (r : Result) : (s.answer r).results = s.results ++ [r] := rfl

@[simp] theorem State.runPhase_joystick (s : State) (m : Mutation) :
    (s.runPhase m).joystick = m.apply s.joystick := rfl
@[simp] theorem State.runPhase_caller (s : State) (m : Mutation) : (s.runPhase m).caller = s.caller := rfl
@[simp] theorem State.runPhase_sent (s : State) (m : Mutation) :
    (s.runPhase m).sent = s.sent ++ [txEvent (m.apply s.joystick)] := rfl
@[simp] theorem State.runPhase_results (s : State) (m : Mutation) : (s.runPhase m).results = s.results := rfl

@[simp] theorem State.resetBlock_joystick (s : State) : s.resetBlock.joystick = .rest := rfl
@[simp] theorem State.resetBlock_caller (s : State) : s.resetBlock.caller = s.caller := rfl
@[simp] theorem State.resetBlock_sent (s : State) : s.resetBlock.sent = s.sent := rfl
@[simp] theorem State.resetBlock_results (s : State) : s.resetBlock.results = s.results := rfl

@[simp] theorem State.withCaller_joystick (s : State) (l : List Input) : (s.withCaller l).joystick = s.joystick := rfl
@[simp] theorem State.withCaller_caller (s : State) (l : List Input) : (s.withCaller l).caller = l := rfl
@[simp] theorem State.withCaller_sent (s : State) (l : List Input) : (s.withCaller l).sent = s.sent := rfl
@[simp] theorem State.withCaller_results (s : State) (l : List Input) : (s.withCaller l).results = s.results := rfl

@[simp] theorem raiseFail_phases (c : FailCause) : (raiseFail c).phases = [] := rfl
@[simp] theorem raiseFail_result (c : FailCause) : (raiseFail c).result = .fail := rfl

@[simp] theorem txEvent_reportId (S : JoystickState) : (txEvent S).reportId = Config.reportId := rfl
@[simp] theorem txEvent_buffer (S : JoystickState) : (txEvent S).buffer = encodeReport S := rfl
@[simp] theorem txEvent_length (S : JoystickState) : (txEvent S).length = 13 := rfl

end Sys2Proof.Machine
end

