-- ==== Sys2Proof/Laws/Ops.lean ====
section
/-! SUPPORT. What each shared operation can do, said once: the phases of a command, performing it, abandoning it,
the operand checks and the axis fields. -/

namespace Sys2Proof.Machine

@[simp] theorem statesAfter_nil (S : JoystickState) : statesAfter S [] = [] := rfl
@[simp] theorem statesAfter_cons (S : JoystickState) (m : Mutation) (ms : List Mutation) :
    statesAfter S (m :: ms) = m.apply S :: statesAfter (m.apply S) ms := rfl
@[simp] theorem finalState_nil (S : JoystickState) : finalState S [] = S := rfl
@[simp] theorem finalState_cons (S : JoystickState) (m : Mutation) (ms : List Mutation) :
    finalState S (m :: ms) = finalState (m.apply S) ms := rfl

theorem statesAfter_length (S : JoystickState) (ms : List Mutation) :
    (statesAfter S ms).length = ms.length := by
  induction ms generalizing S with
  | nil => rfl
  | cons m ms ih => simp [ih]

/-- The last state passed through is the one the mutations end in. -/
theorem statesAfter_getLast? (S T : JoystickState) (ms : List Mutation)
    (h : (statesAfter S ms).getLast? = some T) : T = finalState S ms := by
  induction ms generalizing S with
  | nil => simp at h
  | cons m ms ih =>
    cases ms with
    | nil => simpa using h.symm
    | cons m' ms' =>
      have := ih (m.apply S) (by simpa [List.getLast?_cons_cons] using h)
      simpa using this

theorem statesAfter_take (S : JoystickState) (ms : List Mutation) (n : Nat) :
    statesAfter S (ms.take n) = (statesAfter S ms).take n := by
  induction ms generalizing S n with
  | nil => simp
  | cons m ms ih =>
    cases n with
    | zero => simp
    | succ n => simp [ih]

theorem statesAfter_append (S : JoystickState) (ms ms' : List Mutation) :
    statesAfter S (ms ++ ms') = statesAfter S ms ++ statesAfter (finalState S ms) ms' := by
  induction ms generalizing S with
  | nil => rfl
  | cons m ms ih => simp [ih]

/-- What running phases does, whole: the registers end as the mutations leave them, and every state passed
through is reported, in order. -/
theorem runPhases_eq (s : State) (ms : List Mutation) :
    s.runPhases ms =
      { joystick := finalState s.joystick ms
        caller := s.caller
        sent := s.sent ++ (statesAfter s.joystick ms).map txEvent
        results := s.results } := by
  induction ms generalizing s with
  | nil => simp [State.runPhases]
  | cons m ms ih =>
    have h : s.runPhases (m :: ms) = (s.runPhase m).runPhases ms := rfl
    rw [h, ih]
    simp

/-- What performing a command does, whole. -/
theorem perform_eq (s : State) (p : Plan) :
    s.perform p = s.after (finalState s.joystick p.phases) (statesAfter s.joystick p.phases) p.result := by
  simp only [State.perform, runPhases_eq, State.after]
  rfl

/-- What abandoning a command does, whole. -/
theorem abandon_eq (s : State) (p : Plan) (n : Nat) :
    s.abandon p n =
      { joystick := .rest
        caller := s.caller
        sent := s.sent ++ ((statesAfter s.joystick p.phases).take n).map txEvent
        results := s.results } := by
  simp only [State.abandon, runPhases_eq, statesAfter_take]
  rfl

/-- Every command is performed by its plan. -/
theorem exec_eq_perform (i : Instr) (s : State) : exec i s = .next (s.perform (planOf i)) := by
  cases i <;> rfl

/-- What a step can do, whole: one case per input. -/
theorem step_eq (s : State) :
    step s = .next
      (match s.caller with
       | [] => s
       | .command w :: rest => (s.withCaller rest).perform (planOf (decode w))
       | .reset :: rest => (s.withCaller rest).resetBlock
       | .cutShort w n :: rest => (s.withCaller rest).abandon (planOf (decode w)) n) := by
  rcases h : s.caller with _ | ⟨w | _ | ⟨w, n⟩, rest⟩ <;> simp only [step, h, exec_eq_perform]

/-! ### Operand checks -/

theorem indexOutOfRange_eq_false {a : Byte} (h : a.toNat < 32) : indexOutOfRange a = false := by
  simp [indexOutOfRange]; omega

theorem indexOutOfRange_eq_true {a : Byte} (h : 32 ≤ a.toNat) : indexOutOfRange a = true := by
  simpa [indexOutOfRange] using h

theorem lookupAxis_code (id : AxisId) : lookupAxis id.code = some id := by
  cases id <;> rfl

theorem lookupAxis_eq_none {a : Byte} (h : 10 ≤ a.toNat) : lookupAxis a = none := by
  unfold lookupAxis
  split <;> first | omega | rfl

/-- An identifier below 10 is the number of a member of the enumeration. -/
theorem exists_code_of_lt {a : Byte} (h : a.toNat < 10) : ∃ id : AxisId, a = id.code := by
  have key : ∀ n < 10, ∃ id : AxisId, BitVec.ofNat 8 n = id.code := by
    intro n hn
    interval_cases n
    · exact ⟨.x, rfl⟩
    · exact ⟨.y, rfl⟩
    · exact ⟨.z, rfl⟩
    · exact ⟨.xRot, rfl⟩
    · exact ⟨.yRot, rfl⟩
    · exact ⟨.zRot, rfl⟩
    · exact ⟨.throttle, rfl⟩
    · exact ⟨.rudder, rfl⟩
    · exact ⟨.hat1, rfl⟩
    · exact ⟨.hat2, rfl⟩
  simpa using key a.toNat h

theorem axisId_code_lt (id : AxisId) : id.code.toNat < 10 := by
  cases id <;> decide

/-- What an identifier selects: a member of the enumeration below 10, nothing from 10 on. -/
theorem lookupAxis_cases (a : Byte) :
    (∃ id : AxisId, a = id.code ∧ lookupAxis a = some id) ∨ (10 ≤ a.toNat ∧ lookupAxis a = none) := by
  rcases Nat.lt_or_ge a.toNat 10 with h | h
  · obtain ⟨id, rfl⟩ := exists_code_of_lt h
    exact .inl ⟨id, rfl, lookupAxis_code id⟩
  · exact .inr ⟨h, lookupAxis_eq_none h⟩

/-! ### The axis fields -/

@[simp] theorem readAxis_writeAxis_same (S : JoystickState) (id : AxisId) (v : Byte) :
    (S.writeAxis id v).readAxis id = v := by
  cases id <;> rfl

theorem readAxis_writeAxis_other (S : JoystickState) {id id' : AxisId} (v : Byte) (h : id' ≠ id) :
    (S.writeAxis id v).readAxis id' = S.readAxis id' := by
  cases id <;> cases id' <;> first | rfl | exact absurd rfl h

@[simp] theorem writeAxis_buttons (S : JoystickState) (id : AxisId) (v : Byte) :
    (S.writeAxis id v).buttons = S.buttons := by
  cases id <;> rfl

/-! ### Plans -/

/-- A command outside the contract does nothing and fails; one inside it succeeds. -/
theorem planOf_wellFormed (i : Instr) :
    (i.WellFormed = true ∧ (planOf i).result = .ok) ∨
      (i.WellFormed = false ∧ (planOf i).result = .fail ∧ (planOf i).phases = []) := by
  have index (a : Byte) : (a.toNat < 32 ∧ indexOutOfRange a = false) ∨
      (¬ a.toNat < 32 ∧ indexOutOfRange a = true) := by
    rcases Nat.lt_or_ge a.toNat 32 with h | h
    · exact .inl ⟨h, indexOutOfRange_eq_false h⟩
    · exact .inr ⟨by omega, indexOutOfRange_eq_true h⟩
  have axis (a : Byte) : (a.toNat < 10 ∧ ∃ id, lookupAxis a = some id) ∨
      (¬ a.toNat < 10 ∧ lookupAxis a = none) := by
    rcases lookupAxis_cases a with ⟨id, rfl, h⟩ | ⟨h, h'⟩
    · exact .inl ⟨axisId_code_lt id, id, h⟩
    · exact .inr ⟨by omega, h'⟩
  cases i with
  | beginOp => exact .inl ⟨rfl, rfl⟩
  | endOp => exact .inl ⟨rfl, rfl⟩
  | releaseAll => exact .inl ⟨rfl, rfl⟩
  | reserved => exact .inr ⟨rfl, rfl, rfl⟩
  | buttonDown a =>
    rcases index a with ⟨h, h'⟩ | ⟨h, h'⟩ <;>
      simp [planOf, planButtonDown, Instr.WellFormed, Instr.spellsOperation, Instr.indexInRange, Instr.axisKnown, h, h']
  | buttonUp a =>
    rcases index a with ⟨h, h'⟩ | ⟨h, h'⟩ <;>
      simp [planOf, planButtonUp, Instr.WellFormed, Instr.spellsOperation, Instr.indexInRange, Instr.axisKnown, h, h']
  | buttonPress a =>
    rcases index a with ⟨h, h'⟩ | ⟨h, h'⟩ <;>
      simp [planOf, planButtonPress, Instr.WellFormed, Instr.spellsOperation, Instr.indexInRange, Instr.axisKnown, h, h']
  | axisSet a v =>
    rcases axis a with ⟨h, id, h'⟩ | ⟨h, h'⟩ <;>
      simp [planOf, planAxisSet, Instr.WellFormed, Instr.spellsOperation, Instr.indexInRange, Instr.axisKnown, h, h']
  | axisReset a =>
    rcases axis a with ⟨h, id, h'⟩ | ⟨h, h'⟩ <;>
      simp [planOf, planAxisReset, Instr.WellFormed, Instr.spellsOperation, Instr.indexInRange, Instr.axisKnown, h, h']

end Sys2Proof.Machine
end

