-- ==== Sys2Proof/Laws/PerInstr.lean ====
section
/-! SUPPORT. A family proved per instruction: the assembled word of a command is selected by a row of the opcode
table that bears the command's mnemonic, and leaves every field it does not use 0 (spec/30_encoding.md R42, R50). -/

namespace Sys2Proof.Laws

/-- The fields of a packed word are the fields it was packed from. -/
theorem fieldOp_packFields (op : BitVec 4) (a b : Byte) : fieldOp (packFields op a b) = op :=
  (extract_append_high (op ++ a) b 8 4).trans ((extract_append_high op a 0 4).trans (extract_whole op))

theorem fieldA_packFields (op : BitVec 4) (a b : Byte) : fieldA (packFields op a b) = a :=
  (extract_append_high (op ++ a) b 0 8).trans (extract_append_low op a)

theorem fieldB_packFields (op : BitVec 4) (a b : Byte) : fieldB (packFields op a b) = b :=
  extract_append_low (op ++ a) b

/-- The row's opcode stands in the word of the command. -/
def OpcodeOfWord.Statement (i : Instr) : Prop :=
  ∃ r ∈ opcodeTable, r.mnemonic = i.mnemonic ∧ fieldOp (encode i) = r.pattern.extractLsb' 16 4

theorem OpcodeOfWord.beginOp : OpcodeOfWord.Statement .beginOp :=
  ⟨⟨"BEGIN", 0x00000, 0xF0000⟩, by simp [opcodeTable], rfl, by decide⟩

theorem OpcodeOfWord.endOp : OpcodeOfWord.Statement .endOp :=
  ⟨⟨"END", 0x10000, 0xF0000⟩, by simp [opcodeTable], rfl, by decide⟩

theorem OpcodeOfWord.buttonDown (index : Byte) : OpcodeOfWord.Statement (.buttonDown index) :=
  ⟨⟨"BUTTON_DOWN", 0x20000, 0xF0000⟩, by simp [opcodeTable], rfl, fieldOp_packFields _ _ _⟩

theorem OpcodeOfWord.buttonUp (index : Byte) : OpcodeOfWord.Statement (.buttonUp index) :=
  ⟨⟨"BUTTON_UP", 0x30000, 0xF0000⟩, by simp [opcodeTable], rfl, fieldOp_packFields _ _ _⟩

theorem OpcodeOfWord.buttonPress (index : Byte) : OpcodeOfWord.Statement (.buttonPress index) :=
  ⟨⟨"BUTTON_PRESS", 0x40000, 0xF0000⟩, by simp [opcodeTable], rfl, fieldOp_packFields _ _ _⟩

theorem OpcodeOfWord.axisSet (axisId value : Byte) : OpcodeOfWord.Statement (.axisSet axisId value) :=
  ⟨⟨"AXIS_SET", 0x50000, 0xF0000⟩, by simp [opcodeTable], rfl, fieldOp_packFields _ _ _⟩

theorem OpcodeOfWord.axisReset (axisId : Byte) : OpcodeOfWord.Statement (.axisReset axisId) :=
  ⟨⟨"AXIS_RESET", 0x60000, 0xF0000⟩, by simp [opcodeTable], rfl, fieldOp_packFields _ _ _⟩

theorem OpcodeOfWord.releaseAll : OpcodeOfWord.Statement .releaseAll :=
  ⟨⟨"RELEASE_ALL", 0x70000, 0xF0000⟩, by simp [opcodeTable], rfl, by decide⟩

theorem OpcodeOfWord.reserved : OpcodeOfWord.Statement .reserved :=
  ⟨⟨"RESERVED", 0x80000, 0x80000⟩, by simp [opcodeTable], rfl, by decide⟩

end Sys2Proof.Laws
end

