-- ==== Sys2Proof/Laws/Run.lean ====
section
/-! SUPPORT. A run as a fold: what one input does to the block, and the run over a list of inputs. -/

namespace Sys2Proof.Machine

/-- What one input does, the caller's list aside. -/
def State.applyInput (s : State) : Input → State
  | .command w => s.perform (planOf (decode w))
  | .reset => s.resetBlock
  | .cutShort w n => s.abandon (planOf (decode w)) n

/-- What a list of inputs does, in order. -/
def State.applyInputs (s : State) (inputs : List Input) : State := inputs.foldl State.applyInput s

@[simp] theorem applyInputs_nil (s : State) : s.applyInputs [] = s := rfl
@[simp] theorem applyInputs_cons (s : State) (i : Input) (l : List Input) :
    s.applyInputs (i :: l) = (s.applyInput i).applyInputs l := rfl
theorem applyInputs_append (s : State) (l l' : List Input) :
    s.applyInputs (l ++ l') = (s.applyInputs l).applyInputs l' := by
  simp [State.applyInputs]

/-- No input's effect reads or writes what is still to come. -/
theorem applyInput_withCaller (s : State) (i : Input) (l : List Input) :
    (s.withCaller l).applyInput i = (s.applyInput i).withCaller l := by
  cases i <;> simp [State.applyInput, perform_eq, abandon_eq, State.after, State.withCaller, State.resetBlock]

/-- Every run completes, and ends where the fold ends (R120). -/
theorem runsTo_applyInputs (s : State) (inputs : List Input) :
    RunsTo s inputs ((s.applyInputs inputs).withCaller []) := by
  unfold RunsTo
  induction inputs generalizing s with
  | nil => rfl
  | cons i l ih =>
    have h : Sys2Proof.core.step (s.withCaller (i :: l)) = .next ((s.applyInput i).withCaller l) := by
      show step _ = _
      rw [step_eq, ← applyInput_withCaller]
      cases i <;> rfl
    simp only [List.length_cons, Host.Core.run, h]
    exact ih (s.applyInput i)

end Sys2Proof.Machine
end

