-- ==== Sys2Proof/Laws/Ports.lean ====
section
/-! SUPPORT. What one clock cycle does, said once per place in a command. -/

namespace Sys2Proof.Machine

theorem cycle_reset (p : PortState) {pin : PortIn} (go : Bool) (h : pin.rst = true) :
    p.cycle pin go = .afterReset := by
  simp [PortState.cycle, h]

theorem cycle_idle_accept {p : PortState} {pin : PortIn} (go : Bool) (hr : pin.rst = false) (hp : p.ctl = .idle)
    (hv : pin.cmdValid = true) :
    p.cycle pin go =
      { p with ctl := .busy (planOf (decode pin.cmd)).phases (planOf (decode pin.cmd)).result } := by
  simp [PortState.cycle, hr, hp, hv]

theorem cycle_idle_wait {p : PortState} {pin : PortIn} (go : Bool) (hr : pin.rst = false) (hp : p.ctl = .idle)
    (hv : pin.cmdValid = false) : p.cycle pin go = p := by
  simp [PortState.cycle, hr, hp, hv]

theorem cycle_busy_wait {p : PortState} {pin : PortIn} {todo : List Mutation} {r : Result} (hr : pin.rst = false)
    (hp : p.ctl = .busy todo r) : p.cycle pin false = p := by
  simp [PortState.cycle, hr, hp]

theorem cycle_busy_mutate {p : PortState} {pin : PortIn} {m : Mutation} {rest : List Mutation} {r : Result}
    (hr : pin.rst = false) (hp : p.ctl = .busy (m :: rest) r) :
    p.cycle pin true = { joystick := m.apply p.joystick, ctl := .sending rest r } := by
  simp [PortState.cycle, hr, hp, PortState.advance]

theorem cycle_busy_done {p : PortState} {pin : PortIn} {r : Result} (hr : pin.rst = false)
    (hp : p.ctl = .busy [] r) : p.cycle pin true = { p with ctl := .responding r } := by
  simp [PortState.cycle, hr, hp, PortState.advance]

theorem cycle_sending_wait {p : PortState} {pin : PortIn} {todo : List Mutation} {r : Result} (go : Bool)
    (hr : pin.rst = false) (hp : p.ctl = .sending todo r) (ht : pin.txReady = false) : p.cycle pin go = p := by
  simp [PortState.cycle, hr, hp, ht]

theorem cycle_sending_take {p : PortState} {pin : PortIn} {todo : List Mutation} {r : Result} (go : Bool)
    (hr : pin.rst = false) (hp : p.ctl = .sending todo r) (ht : pin.txReady = true) :
    p.cycle pin go = { p with ctl := .busy todo r } := by
  simp [PortState.cycle, hr, hp, ht]

theorem cycle_responding {p : PortState} {pin : PortIn} {r : Result} (go : Bool) (hr : pin.rst = false)
    (hp : p.ctl = .responding r) : p.cycle pin go = { p with ctl := .idle } := by
  simp [PortState.cycle, hr, hp]

end Sys2Proof.Machine
end

