-- ==== Sys2Proof/Laws/Report.lean ====
section
/-! SUPPORT. The report, byte by byte. -/

namespace Sys2Proof.Machine

/-- Two reports are equal when their thirteen bytes are. -/
theorem report_ext (r r' : Report) (h : ∀ k (hk : k < 13), r[k] = r'[k]) : r = r' :=
  Vector.ext h

/-- Byte 6 bit by bit: hat 1 below bit 4, hat 2 from bit 4 on; the stored upper nibbles are dropped (R55). -/
theorem hatByte_getLsbD (h1 h2 : Byte) (j : Nat) :
    (hatByte h1 h2).getLsbD j =
      (if j < 4 then h1.getLsbD j else decide (j < 8) && h2.getLsbD (j - 4)) := by
  unfold hatByte
  have hmask : ∀ j, (0x0F#8).getLsbD j = decide (j < 4) := by
    intro j
    rcases Nat.lt_or_ge j 8 with h | h
    · interval_cases j <;> decide
    · rw [BitVec.getLsbD_of_ge _ _ h]; simp; omega
  simp only [BitVec.getLsbD_or, BitVec.getLsbD_shiftLeft, BitVec.getLsbD_and, hmask]
  by_cases h : j < 4
  · simp [h]
  · simp [h]

@[simp] theorem encodeReport_0 (S : JoystickState) : (encodeReport S)[0] = S.buttons.extractLsb' 0 8 := rfl
@[simp] theorem encodeReport_1 (S : JoystickState) : (encodeReport S)[1] = S.buttons.extractLsb' 8 8 := rfl
@[simp] theorem encodeReport_2 (S : JoystickState) : (encodeReport S)[2] = S.buttons.extractLsb' 16 8 := rfl
@[simp] theorem encodeReport_3 (S : JoystickState) : (encodeReport S)[3] = S.buttons.extractLsb' 24 8 := rfl
@[simp] theorem encodeReport_4 (S : JoystickState) : (encodeReport S)[4] = S.throttle := rfl
@[simp] theorem encodeReport_5 (S : JoystickState) : (encodeReport S)[5] = S.rudder := rfl
@[simp] theorem encodeReport_6 (S : JoystickState) : (encodeReport S)[6] = hatByte S.hatSw1 S.hatSw2 := rfl
@[simp] theorem encodeReport_7 (S : JoystickState) : (encodeReport S)[7] = S.xAxis := rfl
@[simp] theorem encodeReport_8 (S : JoystickState) : (encodeReport S)[8] = S.yAxis := rfl
@[simp] theorem encodeReport_9 (S : JoystickState) : (encodeReport S)[9] = S.zAxis := rfl
@[simp] theorem encodeReport_10 (S : JoystickState) : (encodeReport S)[10] = S.xRotAxis := rfl
@[simp] theorem encodeReport_11 (S : JoystickState) : (encodeReport S)[11] = S.yRotAxis := rfl
@[simp] theorem encodeReport_12 (S : JoystickState) : (encodeReport S)[12] = S.zRotAxis := rfl

/-- The one bit of a button index (R64). -/
theorem buttonBit_getLsbD (a : Byte) (j : Nat) (hj : j < 32) :
    (buttonBit a).getLsbD j = decide (j = a.toNat) := by
  unfold buttonBit
  simp only [BitVec.getLsbD_shiftLeft, BitVec.getLsbD_one]
  rcases Nat.lt_trichotomy j a.toNat with h | h | h
  · simp [h, Nat.ne_of_lt h]
  · simp [h] at hj ⊢
    omega
  · have h' : ¬ j < a.toNat := by omega
    have h'' : ¬ j - a.toNat = 0 := by omega
    simp [h', h'', Nat.ne_of_gt h]

end Sys2Proof.Machine
end

