-- ==== Sys2Proof/Tests/Slice0.lean ====
section
/-! SUPPORT. Tests of the model against the spec's own numbers (spec/95_test_vectors.md: S sources, E, V, X vectors;
spec/30_encoding.md R50), the checks of WellFormed on ill-formed terms, and, for every statement with hypotheses, a
witness that meets them. -/

namespace Sys2Proof.Tests

open Sys2Proof Sys2Proof.Machine

/-! ### WellFormed refuses -/

theorem test_wellFormed_refuses_index_32 : (Instr.buttonDown 32).indexInRange = false := by decide
theorem test_wellFormed_refuses_press_255 : (Instr.buttonPress 255).WellFormed = false := by decide
theorem test_wellFormed_refuses_axis_10 : (Instr.axisSet 10 1).axisKnown = false := by decide
theorem test_wellFormed_refuses_reset_99 : (Instr.axisReset 99).WellFormed = false := by decide
theorem test_wellFormed_refuses_reserved : Instr.reserved.spellsOperation = false := by decide
theorem test_wellFormed_accepts_boundaries :
    (Instr.buttonUp 31).WellFormed = true ∧ (Instr.axisSet 9 255).WellFormed = true := by decide

/-! ### Decoding, on words written out from R42: op, a, b -/

/-- 0000 1111_1111 1111_1111 (V44). -/
theorem test_decode_begin : decode 0b00001111111111111111#20 = .beginOp := by decide
/-- 0001 0000_0000 0000_0000 (V42). -/
theorem test_decode_end : decode 0b00010000000000000000#20 = .endOp := by decide
/-- 0010 0001_1111 0000_0000 (V2). -/
theorem test_decode_buttonDown : decode 0b00100001111100000000#20 = .buttonDown 31 := by decide
/-- 0011 0001_0000 0000_0000 (V9). -/
theorem test_decode_buttonUp : decode 0b00110001000000000000#20 = .buttonUp 16 := by decide
/-- 0100 0000_1000 0000_0000 (V10). -/
theorem test_decode_buttonPress : decode 0b01000000100000000000#20 = .buttonPress 8 := by decide
/-- 0101 0000_1001 0001_1010 (V28). -/
theorem test_decode_axisSet : decode 0b01010000100100011010#20 = .axisSet 9 0x1A := by decide
/-- 0110 0000_0110 0000_0000 (V35). -/
theorem test_decode_axisReset : decode 0b01100000011000000000#20 = .axisReset 6 := by decide
/-- 0111 1010_1011 1100_1101 (V43). -/
theorem test_decode_releaseAll : decode 0b01111010101111001101#20 = .releaseAll := by decide
/-- 1010 0000_0011 0001_0000 (V58). -/
theorem test_decode_reserved : decode 0b10100000001100010000#20 = .reserved := by decide

theorem test_tableWord : decodeTableWord 24 0x50010 = some (.axisSet 0 0x10) := by decide
/-- 21 bits are no command word. -/
theorem test_tableWord_too_wide : decodeTableWord 24 0x100000 = none := by decide

/-! ### The assembler, on the examples of R50 and V47 -/

theorem test_assemble_axisSet : assemble "AXIS_SET AXIS_X, 0x10" = some 0x50010 := by decide
theorem test_assemble_buttonDown : assemble "BUTTON_DOWN 3" = some 0x20300 := by decide
theorem test_assemble_number : assemble "AXIS_SET 99, 0x77" = some 0x56377 := by decide
theorem test_assemble_refuses_256 : assemble "BUTTON_DOWN 256" = none := by decide
theorem test_assemble_digit_cases : assemble "AXIS_SET 0x9, 0xfF" = some 0x509FF ∧ assemble "BUTTON_UP 0xG" = none := by decide
theorem test_assemble_refuses_hex_digit : assemble "BUTTON_UP 1F" = none := by decide

/-! ### The report -/

/-- E3: every byte distinct, little-endian buttons. -/
theorem test_encode_E3 :
    encodeReport ⟨0xDEADBEEF, 0x11, 0x22, 0x33, 0x44, 0x55, 0x66, 0x77, 0x88, 0x09, 0x0A⟩ =
      #v[0xEF, 0xBE, 0xAD, 0xDE, 0x77, 0x88, 0xA9, 0x11, 0x22, 0x33, 0x44, 0x55, 0x66] := by decide
/-- E3, tx_data. -/
theorem test_txData_E3 :
    txData (encodeReport ⟨0xDEADBEEF, 0x11, 0x22, 0x33, 0x44, 0x55, 0x66, 0x77, 0x88, 0x09, 0x0A⟩) =
      0x665544332211A98877DEADBEEF#104 := by decide
/-- S2, E4: hat 1 = 5, hat 2 = 3. -/
theorem test_hatByte_S2 : hatByte 0x05 0x03 = 0x35 := by decide
/-- E6: the upper nibbles are dropped. -/
theorem test_hatByte_E6 : hatByte 0xF7 0x1A = 0xA7 := by decide
/-- R13: value k is k times 45 degrees, 8 is neutral. -/
theorem test_hatReading : hatReading 7 = .direction 315 ∧ hatReading 8 = .neutral ∧ hatReading 9 = .unnamed := by decide
/-- R27: a 4-byte write is little-endian. -/
theorem test_memWrite : (memWrite (encodeReport .rest) 0 4 0xDEADBEEF).bind (memRead · 2 2) = some 0xDEAD := by decide
/-- R25: offset 13 does not exist. -/
theorem test_memRead_outside : memRead (encodeReport .rest) 12 2 = none := by decide

/-! ### One step of each command -/

/-- What a step of one command word from the registers `S` shows: the registers after, the reports, the result. -/
def stepShows (S : JoystickState) (w : CmdWord) : Option (JoystickState × List Report × List Result) :=
  match step { joystick := S, caller := [.command w], sent := [], results := [] } with
  | .next t => some (t.joystick, t.sent.map (·.buffer), t.results)
  | .fault r => nomatch r
  | .refused _ => none

/-- V5: bit already set, the report is still sent. -/
theorem test_buttonDown_V5 : stepShows { JoystickState.rest with buttons := 0x00000008 } 0x20300 =
    some ({ JoystickState.rest with buttons := 0x00000008 },
      [#v[0x08, 0, 0, 0, 0, 0, 0, 0x80, 0x80, 0, 0, 0, 0]], [.ok]) := by decide
/-- V55: 35 is not taken mod 32. -/
theorem test_buttonDown_V55 : stepShows { JoystickState.rest with buttons := 0x00000008, xAxis := 0x10 } 0x22300 =
    some ({ JoystickState.rest with buttons := 0x00000008, xAxis := 0x10 }, [], [.fail]) := by decide
/-- V9: one bit cleared out of 32. -/
theorem test_buttonUp_V9 : stepShows { JoystickState.rest with buttons := 0xFFFFFFFF } 0x31000 =
    some ({ JoystickState.rest with buttons := 0xFFFEFFFF },
      [#v[0xFF, 0xFF, 0xFE, 0xFF, 0, 0, 0, 0x80, 0x80, 0, 0, 0, 0]], [.ok]) := by decide
/-- V52. -/
theorem test_buttonUp_V52 : stepShows { JoystickState.rest with buttons := 0x00000008, xAxis := 0x10 } 0x32000 =
    some ({ JoystickState.rest with buttons := 0x00000008, xAxis := 0x10 }, [], [.fail]) := by decide
/-- V11: button already down; two reports, ends up. -/
theorem test_buttonPress_V11 : stepShows { JoystickState.rest with buttons := 0x80000001 } 0x41F00 =
    some ({ JoystickState.rest with buttons := 0x00000001 },
      [#v[0x01, 0, 0, 0x80, 0, 0, 0, 0x80, 0x80, 0, 0, 0, 0], #v[0x01, 0, 0, 0, 0, 0, 0, 0x80, 0x80, 0, 0, 0, 0]],
      [.ok]) := by decide
/-- V54: largest index, neither phase runs. -/
theorem test_buttonPress_V54 : stepShows { JoystickState.rest with buttons := 0x00000008, xAxis := 0x10 } 0x4FF00 =
    some ({ JoystickState.rest with buttons := 0x00000008, xAxis := 0x10 }, [], [.fail]) := by decide
/-- V28: both hats; upper nibble of hat 2 shifted out. -/
theorem test_axisSet_V28 : stepShows { JoystickState.rest with hatSw1 := 0xF7 } 0x5091A =
    some ({ JoystickState.rest with hatSw1 := 0xF7, hatSw2 := 0x1A },
      [#v[0, 0, 0, 0, 0, 0, 0xA7, 0x80, 0x80, 0, 0, 0, 0]], [.ok]) := by decide
/-- V46: first unknown identifier. -/
theorem test_axisSet_V46 : stepShows { JoystickState.rest with buttons := 0x00000008, xAxis := 0x10 } 0x50A01 =
    some ({ JoystickState.rest with buttons := 0x00000008, xAxis := 0x10 }, [], [.fail]) := by decide
/-- V33: Y rests at 0x80. -/
theorem test_axisReset_V33 : stepShows { JoystickState.rest with yAxis := 0x12 } 0x60100 =
    some (.rest, [#v[0, 0, 0, 0, 0, 0, 0, 0x80, 0x80, 0, 0, 0, 0]], [.ok]) := by decide
/-- V36: the whole hat field is cleared, the other hat is untouched. -/
theorem test_axisReset_V36 : stepShows { JoystickState.rest with hatSw1 := 0xF7, hatSw2 := 0x1A } 0x60900 =
    some ({ JoystickState.rest with hatSw1 := 0xF7 },
      [#v[0, 0, 0, 0, 0, 0, 0x07, 0x80, 0x80, 0, 0, 0, 0]], [.ok]) := by decide
/-- V39. -/
theorem test_releaseAll_V39 :
    stepShows ⟨0xDEADBEEF, 0x11, 0x22, 0x33, 0x44, 0x55, 0x66, 0x77, 0x88, 0xF9, 0xFA⟩ 0x70000 =
      some (.rest, [#v[0, 0, 0, 0, 0, 0, 0, 0x80, 0x80, 0, 0, 0, 0]], [.ok]) := by decide
/-- V40. -/
theorem test_begin_V40 : stepShows { JoystickState.rest with buttons := 0x00000008, xAxis := 0x10 } 0x00000 =
    some (.rest, [#v[0, 0, 0, 0, 0, 0, 0, 0x80, 0x80, 0, 0, 0, 0]], [.ok]) := by decide
/-- V45: unused fields ignored, nothing sent. -/
theorem test_end_V45 : stepShows { JoystickState.rest with buttons := 0x00000001 } 0x1FFFF =
    some ({ JoystickState.rest with buttons := 0x00000001 }, [], [.ok]) := by decide
/-- V58: reserved opcode 0xA. -/
theorem test_reserved_V58 : stepShows { JoystickState.rest with buttons := 0x00000008, xAxis := 0x10 } 0xA0310 =
    some ({ JoystickState.rest with buttons := 0x00000008, xAxis := 0x10 }, [], [.fail]) := by decide

/-! ### Witnesses: every statement's hypotheses, met together -/

/-- Registers at rest, one BEGIN presented. -/
def beginPresented : State := State.reset.withCaller [.command 0x00000]

/-- Idle after reset. -/
def idlePort : PortState := .afterReset

/-- A report of button 0 is on the transmit port. -/
def sendingPort : PortState where
  joystick := { JoystickState.rest with buttons := 1 }
  ctl := .sending [] .ok

/-- No pin asserted. -/
def quietPins : PortIn where
  rst := false
  cmdValid := false
  cmd := 0
  txReady := false
  txStatus := false

theorem test_witness_UnusedFieldsAreIgnored :
    (0x0#4).toNat = 0 ∧ (0x1#4).toNat = 1 ∧ 7 ≤ (0x7#4).toNat ∧ 7 ≤ (0xF#4).toNat ∧
    (0x2#4).toNat = 2 ∧ (0x3#4).toNat = 3 ∧ (0x4#4).toNat = 4 ∧ (0x6#4).toNat = 6 := by decide
theorem test_witness_OpcodeMapPartitionsAllWords : 8 ≤ (0x8#4).toNat ∧ 8 ≤ (0xF#4).toNat := by decide
theorem test_witness_unknown_axis_boundaries : 10 ≤ (10#8).toNat ∧ 10 ≤ (255#8).toNat := by decide
theorem test_witness_StepRunsThePresentedCommand : beginPresented.caller = .command 0x00000 :: [] := rfl
theorem test_witness_PlacedWordRunsNext : 0xFFFFF < 2 ^ 20 := by decide
theorem test_witness_IdleBlockDoesNothing : State.reset.caller = [] := rfl
theorem test_witness_ReportLayout :
    ({ JoystickState.rest with hatSw1 := 5, hatSw2 := 3 }).hatSw1 = 5 ∧
    ({ JoystickState.rest with hatSw1 := 5, hatSw2 := 3 }).hatSw2 = 3 := ⟨rfl, rfl⟩
theorem test_witness_ButtonBitInReport : 0 < 32 ∧ 31 < 32 := by decide
theorem test_witness_ReportShowsExactlyTheReportedBits :
    ({ JoystickState.rest with hatSw1 := 15, hatSw2 := 15 }).hatSw1.toNat < 16 ∧
    ({ JoystickState.rest with hatSw1 := 15, hatSw2 := 15 }).hatSw2.toNat < 16 ∧
    encodeReport { JoystickState.rest with hatSw1 := 15, hatSw2 := 15 } =
      #v[0, 0, 0, 0, 0, 0, 0xFF, 0x80, 0x80, 0, 0, 0, 0] := by decide
theorem test_witness_BufferReadAfterWrite : 9 + 4 ≤ 13 ∧ 0 < 4 ∧ 13 < 10 + 4 := by decide
theorem test_witness_TxDataLanes : 0 < 13 ∧ 12 < 13 := by decide
theorem test_witness_button_boundaries : (0#8).toNat < 32 ∧ (31#8).toNat < 32 ∧ 32 ≤ (32#8).toNat ∧ 32 ≤ (255#8).toNat := by
  decide
/-- For TransmitCounts, WriteSets: a command that writes and reports. -/
theorem test_witness_exec_next : ∃ t, exec (.buttonDown 31) State.reset = .next t ∧ t.sent.length = 1 := ⟨_, rfl, rfl⟩
/-- For AxisSetFrame's last clause: the selected byte does differ. -/
theorem test_witness_AxisSetFrame :
    (0x80#8).getLsbD 7 ≠ (0x10#8).getLsbD 7 ∧ (encodeReport .rest)[7]? = some 0x80 ∧
    (encodeReport { JoystickState.rest with xAxis := 0x10 })[7]? = some 0x10 := by decide
/-- For ButtonWritesExactlyOneReportBit and PressReportsDifferInOneBit: the bytes they read exist. -/
theorem test_witness_report_bytes :
    (encodeReport .rest)[3]? = some 0 ∧ (encodeReport { JoystickState.rest with buttons := 0x80000000 })[3]? = some 0x80 := by
  decide
theorem test_witness_ReservedOpcodesFail : (0x80000#20).getLsbD 19 = true ∧ (0xFFFFF#20).getLsbD 19 = true := by decide
theorem test_witness_FailureChangesNothing :
    (Instr.axisSet 10 0).WellFormed = false ∧
    ∃ t, exec (.axisSet 10 0) State.reset = .next t ∧ t.results = State.reset.results ++ [.fail] := ⟨rfl, _, rfl, rfl⟩
theorem test_witness_WriteSets :
    ∃ t, exec (.axisSet 0 0x10) State.reset = .next t ∧
      t.joystick.readAxis .x ≠ State.reset.joystick.readAxis .x := ⟨_, rfl, by decide⟩
theorem test_witness_WriteSets_buttons :
    ∃ t, exec (.buttonDown 31) State.reset = .next t ∧
      t.joystick.buttons.getLsbD 31 ≠ State.reset.joystick.buttons.getLsbD 31 := ⟨_, rfl, by decide⟩
theorem test_witness_ResetEvent : (State.reset.withCaller [.reset]).caller = .reset :: [] := rfl
theorem test_witness_ResetAbandonsTheCommand :
    (State.reset.withCaller [.cutShort 0x40800 1]).caller = .cutShort 0x40800 1 :: [] := rfl
theorem test_witness_NothingSentBeforeTheFirstMutation :
    ([.command 0x10000, .command 0x22000, .command 0x90000] : List Input).all silent = true ∧
    decode 0x00000 = .beginOp := by decide
theorem test_witness_OnlyTheRegistersCarryOver : State.reset.joystick = beginPresented.joystick := rfl
theorem test_witness_StepKeepsTransmitsWellFormed :
    TransmitsWellFormed beginPresented ∧ ∃ t, step beginPresented = .next t ∧ t.sent.length = 1 :=
  ⟨fun _ h => (nomatch h), _, rfl, rfl⟩
theorem test_witness_StepKeepsTransportUpToDate :
    (commandsOnly beginPresented.caller = true ∧ UpToDate beginPresented) ∧
    ∃ t, step beginPresented = .next t ∧ t.sent.length = 1 :=
  ⟨⟨rfl, fun _ h => (nomatch h)⟩, _, rfl, rfl⟩
/-- A BUTTON_DOWN 0 through the ports: accepted, mutated, handed over, answered. -/
theorem test_witness_PortsRefineTheAtomicStep :
    ∃ p log, portRun .afterReset .empty
      [(({ quietPins with cmdValid := true, cmd := 0x20000 }), false), (quietPins, true),
       (({ quietPins with txReady := true }), false), (quietPins, true), (quietPins, false)] = (p, log) ∧
      p.ctl = .idle ∧ log.current = none ∧ log.sent.length = 1 ∧ log.results = [.ok] ∧
      log.inputs = [.command 0x20000] := ⟨_, _, rfl, rfl, rfl, rfl, rfl, rfl⟩
/-- Reset between the two reports of a BUTTON_PRESS 8: one report, no result. -/
theorem test_ports_reset_in_press :
    (portRun .afterReset .empty
      [(({ quietPins with cmdValid := true, cmd := 0x40800 }), false), (quietPins, true),
       (({ quietPins with txReady := true }), false), (quietPins, true), (({ quietPins with rst := true }), false)]).2.inputs =
      [.cutShort 0x40800 1] := rfl
theorem test_witness_BusyBlockAcceptsNothing :
    sendingPort.ctl ≠ .idle ∧
    (PortState.cycle { sendingPort with ctl := .busy [.clearButton 0] .ok } quietPins true).joystick ≠
      sendingPort.joystick := by decide
theorem test_witness_BlockIsHeldByItsTransport :
    sendingPort.ctl = .sending [] .ok ∧ ∀ c ∈ [(quietPins, true)], c.1.rst = false ∧ c.1.txReady = false := by decide
theorem test_witness_CommandCompletesWhenTransportAccepts :
    idlePort.ctl = .idle ∧ ({ quietPins with cmdValid := true }).rst = false ∧
    ({ quietPins with cmdValid := true }).cmdValid = true ∧
    (List.replicate 6 (({ quietPins with txReady := true }), true)).length = 6 ∧
    ∀ c ∈ List.replicate 6 (({ quietPins with txReady := true }), true),
      c.1.rst = false ∧ c.1.txReady = true ∧ c.2 = true := by decide
theorem test_witness_ResetAtThePorts : ({ quietPins with rst := true }).rst = true := rfl
theorem test_witness_PortCycleKeepsTheAgreement : PortsAgree .afterReset .empty :=
  ⟨State.reset, rfl, rfl, rfl, rfl, rfl⟩
/-- A command in progress: button 0 down, its report waiting. -/
theorem test_witness_PortCycleKeepsTheAgreement_sending :
    PortsAgree sendingPort { PortLog.empty with current := some (0x20000, 0) } :=
  ⟨State.reset, rfl, rfl, [.setButton 0], [], rfl, rfl, rfl, .inr (.inl ⟨rfl, rfl⟩)⟩
/-- For ReportsAreSnapshots: the two states a BUTTON_PRESS 8 from rest passes through. -/
theorem test_snapshots_of_press : statesAfter .rest (planOf (.buttonPress 8)).phases =
    [{ JoystickState.rest with buttons := 0x00000100 }, .rest] := by decide
theorem test_witness_ResponseAndConstantPins :
    ({ idlePort with ctl := .responding .ok }).ctl = .responding .ok ∧
    (({ idlePort with ctl := .responding .ok } : PortState).pins false).respValid = true := by decide

end Sys2Proof.Tests
end

/-! ### Proofs: what the state is and what can change it (spec/10_state.md) -/

section
namespace Sys2Proof.Machine

/-! ### Rest values -/

/-- The table of R14 and the rest record give the same value for every identifier. -/
theorem axisRest_eq_readAxis_rest (id : AxisId) : axisRest id = JoystickState.rest.readAxis id := by
  cases id <;> rfl

/-- Settles O37: the reset state is the record `REST`, whose fields R14 lists. -/
theorem resetValues : Obligations.ResetValues :=
  ⟨rfl, rfl, axisRest_eq_readAxis_rest⟩

/-! ### One step -/

theorem step_command {s : State} {w : CmdWord} {rest : List Input} (h : s.caller = .command w :: rest) :
    step s = exec (decode w) (s.withCaller rest) := by
  rw [step_eq, exec_eq_perform, h]

/-- Settles O8: `withCaller rest` is the state with that input consumed. -/
theorem stepRunsThePresentedCommand : Obligations.StepRunsThePresentedCommand :=
  fun _ _ _ h => step_command h

/-! ### What one mutation makes of a button bit and of an axis field -/

theorem setButton_getLsbD (a : Byte) (S : JoystickState) {j : Nat} (hj : j < 32) :
    ((Mutation.setButton a).apply S).buttons.getLsbD j = (S.buttons.getLsbD j || decide (j = a.toNat)) := by
  simp [Mutation.apply, buttonBit_getLsbD a j hj]

theorem clearButton_getLsbD (a : Byte) (S : JoystickState) {j : Nat} (hj : j < 32) :
    ((Mutation.clearButton a).apply S).buttons.getLsbD j = (S.buttons.getLsbD j && !decide (j = a.toNat)) := by
  simp only [Mutation.apply, BitVec.getLsbD_and, BitVec.getLsbD_not, buttonBit_getLsbD a j hj, hj, decide_true,
    Bool.true_and]

@[simp] theorem writeAxis_apply_buttons (id : AxisId) (v : Byte) (S : JoystickState) :
    ((Mutation.writeAxis id v).apply S).buttons = S.buttons :=
  writeAxis_buttons S id v

@[simp] theorem toRest_getLsbD (S : JoystickState) (j : Nat) :
    (Mutation.toRest.apply S).buttons.getLsbD j = false := by
  simp [Mutation.apply, JoystickState.rest]

@[simp] theorem setButton_readAxis (a : Byte) (S : JoystickState) (id : AxisId) :
    ((Mutation.setButton a).apply S).readAxis id = S.readAxis id := by
  cases id <;> rfl

@[simp] theorem clearButton_readAxis (a : Byte) (S : JoystickState) (id : AxisId) :
    ((Mutation.clearButton a).apply S).readAxis id = S.readAxis id := by
  cases id <;> rfl

@[simp] theorem toRest_readAxis (S : JoystickState) (id : AxisId) :
    (Mutation.toRest.apply S).readAxis id = JoystickState.rest.readAxis id := rfl

/-- A field that an axis write changed is the field it names, and holds the value written. -/
theorem writeAxis_readAxis_of_ne {id id' : AxisId} {v : Byte} {S : JoystickState}
    (h : ((Mutation.writeAxis id' v).apply S).readAxis id ≠ S.readAxis id) :
    id = id' ∧ ((Mutation.writeAxis id' v).apply S).readAxis id = v := by
  have hid : id = id' := by
    by_contra hne
    exact h (readAxis_writeAxis_other S v hne)
  subst hid
  exact ⟨rfl, readAxis_writeAxis_same S id v⟩

/-! ### The mutations of each command -/

/-- The mutations a command can make, one constructor per kind of command; a command that fails, and END, make none. -/
inductive MakesPhases : Instr → List Mutation → Prop where
  | none (i : Instr) : MakesPhases i []
  | buttonDown (a : Byte) : MakesPhases (.buttonDown a) [.setButton a]
  | buttonUp (a : Byte) : MakesPhases (.buttonUp a) [.clearButton a]
  | buttonPress (a : Byte) : MakesPhases (.buttonPress a) [.setButton a, .clearButton a]
  | axisSet (id : AxisId) (v : Byte) : MakesPhases (.axisSet id.code v) [.writeAxis id v]
  | axisReset (id : AxisId) : MakesPhases (.axisReset id.code) [.writeAxis id (axisRest id)]
  | releaseAll : MakesPhases .releaseAll [.toRest]
  | beginOp : MakesPhases .beginOp [.toRest]

theorem planOf_makesPhases (i : Instr) : MakesPhases i (planOf i).phases := by
  cases i with
  | beginOp => exact .beginOp
  | endOp => exact .none _
  | releaseAll => exact .releaseAll
  | reserved => exact .none _
  | buttonDown a =>
    simp only [planOf, planButtonDown]
    split
    · exact .none _
    · exact .buttonDown a
  | buttonUp a =>
    simp only [planOf, planButtonUp]
    split
    · exact .none _
    · exact .buttonUp a
  | buttonPress a =>
    simp only [planOf, planButtonPress]
    split
    · exact .none _
    · exact .buttonPress a
  | axisSet a v =>
    rcases lookupAxis_cases a with ⟨id, rfl, h⟩ | ⟨-, h⟩ <;> simp only [planOf, planAxisSet, h]
    · exact .axisSet id v
    · exact .none _
  | axisReset a =>
    rcases lookupAxis_cases a with ⟨id, rfl, h⟩ | ⟨-, h⟩ <;> simp only [planOf, planAxisReset, h]
    · exact .axisReset id
    · exact .none _

/-! ### Which command changed a button bit or an axis field (R17) -/

theorem button_write_cases {i : Instr} {ms : List Mutation} (hm : MakesPhases i ms) (S : JoystickState) {j : Nat}
    (hj : j < 32) (hne : (finalState S ms).buttons.getLsbD j ≠ S.buttons.getLsbD j) :
    (i = .buttonDown (BitVec.ofNat 8 j) ∧ (finalState S ms).buttons.getLsbD j = true) ∨
      ((i = .buttonUp (BitVec.ofNat 8 j) ∨ i = .buttonPress (BitVec.ofNat 8 j) ∨ i = .releaseAll ∨ i = .beginOp) ∧
        (finalState S ms).buttons.getLsbD j = false) := by
  cases hm with
  | none => exact absurd rfl hne
  | axisSet id v => simp at hne
  | axisReset id => simp at hne
  | releaseAll => simp
  | beginOp => simp
  | buttonDown a =>
    simp only [finalState_cons, finalState_nil, setButton_getLsbD _ _ hj] at hne ⊢
    have hja : j = a.toNat := by by_contra h; simp [h] at hne
    simp [hja]
  | buttonUp a =>
    simp only [finalState_cons, finalState_nil, clearButton_getLsbD _ _ hj] at hne ⊢
    have hja : j = a.toNat := by by_contra h; simp [h] at hne
    simp [hja]
  | buttonPress a =>
    simp only [finalState_cons, finalState_nil, clearButton_getLsbD _ _ hj, setButton_getLsbD _ _ hj] at hne ⊢
    have hja : j = a.toNat := by by_contra h; simp [h] at hne
    simp [hja]

theorem axis_write_cases {i : Instr} {ms : List Mutation} (hm : MakesPhases i ms) (S : JoystickState) {id : AxisId}
    (hne : (finalState S ms).readAxis id ≠ S.readAxis id) :
    i = .axisSet id.code ((finalState S ms).readAxis id) ∨
      ((i = .axisReset id.code ∨ i = .releaseAll ∨ i = .beginOp) ∧
        (finalState S ms).readAxis id = JoystickState.rest.readAxis id) := by
  cases hm with
  | none => exact absurd rfl hne
  | buttonDown a => simp at hne
  | buttonUp a => simp at hne
  | buttonPress a => simp at hne
  | releaseAll => simp
  | beginOp => simp
  | axisSet id' v =>
    obtain ⟨rfl, hv⟩ := writeAxis_readAxis_of_ne hne
    exact .inl (congrArg _ hv.symm)
  | axisReset id' =>
    obtain ⟨rfl, hv⟩ := writeAxis_readAxis_of_ne hne
    exact .inr ⟨.inl rfl, hv.trans (axisRest_eq_readAxis_rest id)⟩

/-- Settles O36, by the mutations of each command. -/
theorem writeSets : Obligations.WriteSets := by
  intro i s t h
  rw [exec_eq_perform, perform_eq] at h
  obtain rfl := Host.Outcome.next.inj h
  have hm := planOf_makesPhases i
  exact ⟨rfl, fun _ => button_write_cases hm s.joystick, fun _ => axis_write_cases hm s.joystick⟩

/-! ### Only the registers carry over (R20, R22) -/

/-- Going from `s` to `t` adds the same reports and the same results as going from `s'` to `t'`, and the registers of
`t` and `t'` are equal. -/
structure AddsAlike (s s' t t' : State) : Prop where
  registers : t.joystick = t'.joystick
  adds : ∃ events answers,
    t.sent = s.sent ++ events ∧ t'.sent = s'.sent ++ events ∧
    t.results = s.results ++ answers ∧ t'.results = s'.results ++ answers

theorem AddsAlike.refl {s s' : State} (h : s.joystick = s'.joystick) : AddsAlike s s' s s' :=
  ⟨h, [], [], by simp⟩

theorem AddsAlike.trans {s s' t t' u u' : State} (h : AddsAlike s s' t t') (h' : AddsAlike t t' u u') :
    AddsAlike s s' u u' := by
  obtain ⟨-, events, answers, hs, hs', hr, hr'⟩ := h
  obtain ⟨hj, events', answers', hs₂, hs₂', hr₂, hr₂'⟩ := h'
  exact ⟨hj, events ++ events', answers ++ answers', by simp [*]⟩

/-- What one input adds is a function of the registers. -/
theorem applyInput_addsAlike {s s' : State} (h : s.joystick = s'.joystick) (i : Input) :
    AddsAlike s s' (s.applyInput i) (s'.applyInput i) := by
  cases i with
  | command w =>
    simp only [State.applyInput, perform_eq, h]
    exact ⟨rfl, _, _, rfl, rfl, rfl, rfl⟩
  | reset => exact ⟨rfl, [], [], by simp [State.applyInput]⟩
  | cutShort w n =>
    simp only [State.applyInput, abandon_eq, h]
    exact ⟨rfl, _, [], rfl, rfl, by simp⟩

theorem applyInputs_addsAlike {s s' : State} (h : s.joystick = s'.joystick) (inputs : List Input) :
    AddsAlike s s' (s.applyInputs inputs) (s'.applyInputs inputs) := by
  induction inputs generalizing s s' with
  | nil => exact .refl h
  | cons i l ih =>
    have hi := applyInput_addsAlike h i
    exact hi.trans (ih hi.registers)

/-- Settles O43: both runs end where their folds end, and the folds add alike. -/
theorem onlyTheRegistersCarryOver : Obligations.OnlyTheRegistersCarryOver := by
  intro s s' inputs h
  obtain ⟨hj, events, answers, hadded⟩ := applyInputs_addsAlike h inputs
  exact ⟨_, _, events, answers, runsTo_applyInputs s inputs, runsTo_applyInputs s' inputs, hj, hadded⟩

end Sys2Proof.Machine
end

/-! ### Proofs: the report buffer and the reports a command sends (spec/20_memory.md) -/

section
namespace Sys2Proof.Machine

/-! ### The transport is up to date (R31, R59) -/

/-- A phase ends with the transmit of the registers it leaves, whatever the transport had received before it. -/
theorem runPhase_upToDate (s : State) (m : Mutation) : UpToDate (s.runPhase m) := by
  intro e he
  have hlast : txEvent (m.apply s.joystick) = e := by simpa using he
  simp [← hlast]

theorem runPhases_upToDate {s : State} (h : UpToDate s) (ms : List Mutation) : UpToDate (s.runPhases ms) := by
  induction ms generalizing s with
  | nil => exact h
  | cons m ms ih => exact ih (runPhase_upToDate s m)

/-- Returning the result touches neither the registers nor what was sent. -/
theorem perform_upToDate {s : State} (h : UpToDate s) (p : Plan) : UpToDate (s.perform p) :=
  runPhases_upToDate h p.phases

/-- Settles O45: the next input, if any, is a command, and performing it keeps the transport up to date. -/
theorem stepKeepsTransportUpToDate : Obligations.StepKeepsTransportUpToDate := by
  rintro s t ⟨hcmds, hup⟩ hstep
  rw [step_eq] at hstep
  obtain rfl := Host.Outcome.next.inj hstep
  rcases hcaller : s.caller with _ | ⟨w | _ | ⟨w, n⟩, rest⟩
  case nil => exact ⟨hcmds, hup⟩
  case cons.command =>
    have hrest : commandsOnly rest = true := by simpa [hcaller, commandsOnly] using hcmds
    refine ⟨?_, perform_upToDate (s := s.withCaller rest) hup _⟩
    simpa [perform_eq, State.after] using hrest
  case cons.reset => simp [hcaller, commandsOnly] at hcmds
  case cons.cutShort => simp [hcaller, commandsOnly] at hcmds

/-! ### The button bytes of the report (R11, R26) -/

theorem encodeReport_buttonByte (S : JoystickState) {k : Nat} (hk : k < 4) :
    (encodeReport S)[k]? = some (S.buttons.extractLsb' (8 * k) 8) := by
  interval_cases k <;> rfl

/-- Settles O13: bit i mod 8 of the slice that starts at bit 8 (i div 8) is bit i. -/
theorem buttonBitInReport : Obligations.ButtonBitInReport := by
  intro S i hi
  refine ⟨_, encodeReport_buttonByte S (k := i / 8) (by omega), ?_⟩
  have hbit : i % 8 < 8 := Nat.mod_lt _ (by decide)
  simp [hbit, Nat.div_add_mod]

/-! ### Reading and writing the report buffer (R25, R27) -/

@[simp] theorem memWrite_zero (r : Report) (k v : Nat) : memWrite r k 0 v = some r := rfl

theorem memWrite_succ (r : Report) {k : Nat} (n v : Nat) (hk : k < 13) :
    memWrite r k (n + 1) v = memWrite (r.set k (BitVec.ofNat 8 v) hk) (k + 1) n (v / 256) := by
  simp [memWrite, hk]

theorem memWrite_succ_outside (r : Report) {k : Nat} (n v : Nat) (hk : 13 ≤ k) : memWrite r k (n + 1) v = none := by
  simp [memWrite, Nat.not_lt.mpr hk]

theorem memRead_succ {r : Report} {k n rest : Nat} {b : Byte} (hb : r[k]? = some b)
    (hrest : memRead r (k + 1) n = some rest) : memRead r k (n + 1) = some (b.toNat + 256 * rest) := by
  simp [memRead, hb, hrest]

theorem memRead_succ_of_byte_none {r : Report} {k : Nat} (n : Nat) (hb : r[k]? = none) :
    memRead r k (n + 1) = none := by
  simp [memRead, hb]

theorem memRead_succ_of_rest_none {r : Report} {k n : Nat} (hrest : memRead r (k + 1) n = none) :
    memRead r k (n + 1) = none := by
  simp only [memRead, hrest]
  cases r[k]? <;> rfl

/-- Inside the buffer: the low byte goes to offset k, and the rest of the value is a write one byte further on, which
leaves offset k alone. -/
theorem memWrite_inside (r : Report) (k n v : Nat) (h : k + n ≤ 13) :
    ∃ r', memWrite r k n v = some r' ∧ memRead r' k n = some (v % 256 ^ n) ∧
      ∀ j, j < k ∨ k + n ≤ j → r'[j]? = r[j]? := by
  induction n generalizing r k v with
  | zero => exact ⟨r, rfl, by simp [memRead, Nat.mod_one], fun _ _ => rfl⟩
  | succ n ih =>
    have hk : k < 13 := by omega
    obtain ⟨r', hwrite, hread, hframe⟩ := ih (r.set k (BitVec.ofNat 8 v) hk) (k + 1) (v / 256) (by omega)
    have hlow : r'[k]? = some (BitVec.ofNat 8 v) := by
      rw [hframe k (by omega)]
      simp [hk]
    refine ⟨r', by rw [memWrite_succ r n v hk, hwrite], ?_, fun j hj => ?_⟩
    · calc memRead r' k (n + 1)
          = some ((BitVec.ofNat 8 v).toNat + 256 * (v / 256 % 256 ^ n)) := memRead_succ hlow hread
        _ = some (v % 256 ^ (n + 1)) := by rw [Nat.pow_succ', Nat.mod_mul, BitVec.toNat_ofNat]
    · rw [hframe j (by omega), Vector.getElem?_set_ne hk (by omega)]

/-- A range that reaches past offset 12 meets its first missing offset, at once or further on. -/
theorem memAccess_outside (r : Report) (k n v : Nat) (hn : 0 < n) (h : 13 < k + n) :
    memWrite r k n v = none ∧ memRead r k n = none := by
  induction n generalizing r k v with
  | zero => omega
  | succ n ih =>
    rcases Nat.lt_or_ge k 13 with hk | hk
    · have hwrite := (ih (r.set k (BitVec.ofNat 8 v) hk) (k + 1) (v / 256) (by omega) (by omega)).1
      have hread := (ih r (k + 1) v (by omega) (by omega)).2
      exact ⟨by rw [memWrite_succ r n v hk, hwrite], memRead_succ_of_rest_none hread⟩
    · exact ⟨memWrite_succ_outside r n v hk, memRead_succ_of_byte_none n (by simpa using hk)⟩

/-- Settles O16, by induction on the width of the access. -/
theorem bufferReadAfterWrite : Obligations.BufferReadAfterWrite :=
  ⟨memWrite_inside, memAccess_outside⟩

/-! ### The report as its fields written one by one (R26, R27, R55) -/

/-- The byte that a little-endian write takes from a value after k bits have gone is a slice of the value's bits. -/
theorem ofNat_toNat_div_eq_extract {w : Nat} (x : BitVec w) (k : Nat) :
    BitVec.ofNat 8 (x.toNat / 2 ^ k) = x.extractLsb' k 8 := by
  rw [← Nat.shiftRight_eq_div_pow]
  rfl

/-- Byte 6 as a number: hat 1's low nibble, and sixteen times hat 2's (R29). -/
theorem ofNat_nibbles_eq_hatByte (h1 h2 : Byte) :
    BitVec.ofNat 8 (h1.toNat % 16 + 16 * (h2.toNat % 16)) = hatByte h1 h2 := by
  apply BitVec.eq_of_getLsbD_eq
  intro j hj
  have hlow : h1.toNat % 2 ^ 4 < 2 ^ 4 := Nat.mod_lt _ (by decide)
  have hsum : h1.toNat % 16 + 16 * (h2.toNat % 16) = 2 ^ 4 * (h2.toNat % 2 ^ 4) + h1.toNat % 2 ^ 4 := by omega
  rw [hatByte_getLsbD, BitVec.getLsbD_ofNat, hsum, Nat.testBit_two_pow_mul_add _ hlow,
    Nat.testBit_mod_two_pow, Nat.testBit_mod_two_pow, BitVec.testBit_toNat, BitVec.testBit_toNat]
  by_cases h : j < 4
  · simp [h, hj]
  · have hhigh : j - 4 < 4 := by omega
    simp [h, hj, hhigh]

theorem memWrite_byte (r : Report) {k : Nat} (v : Nat) (hk : k < 13) :
    memWrite r k 1 v = some (r.set k (BitVec.ofNat 8 v) hk) := by
  rw [memWrite_succ r 0 v hk, memWrite_zero]

/-- Writing the button mask puts its four slices at offsets 0 to 3, lowest first (R27). -/
theorem memWrite_buttons (r : Report) (x : ButtonMask) :
    memWrite r 0 4 x.toNat = some
      ((((r.set 0 (x.extractLsb' 0 8)).set 1 (x.extractLsb' 8 8)).set 2 (x.extractLsb' 16 8)).set 3
        (x.extractLsb' 24 8)) := by
  simp [← ofNat_toNat_div_eq_extract, memWrite_succ, Nat.div_div_eq_div_mul]

/-- Settles O15: each of the thirteen offsets is written once, so nothing of the buffer is left. -/
theorem reportIsItsFieldsWritten : Obligations.ReportIsItsFieldsWritten := by
  intro S r
  simp (disch := decide) only [memWrite_buttons, memWrite_byte, ofNat_nibbles_eq_hatByte, BitVec.ofNat_toNat,
    Option.bind_some, BitVec.setWidth_eq]
  congr 1
  apply report_ext
  intro k hk
  interval_cases k <;> simp

/-! ### The reports of a command (R31, R33, R34) -/

/-- Settles O19: performing a plan reports every state its mutations pass through. -/
theorem reportsAreSnapshots : Obligations.ReportsAreSnapshots := by
  intro i s
  refine ⟨_, exec_eq_perform i s, ?_⟩
  rw [perform_eq]
  refine ⟨rfl, rfl, fun S hS => statesAfter_getLast? s.joystick S _ hS, fun hnone => ?_⟩
  simp [State.after, hnone]

/-- A button plan that answers `OK` has passed the index check (R68). -/
theorem indexGuard_of_ok {a : Byte} {p : Plan}
    (hok : (if indexOutOfRange a then raiseFail .index else p).result = .ok) :
    (if indexOutOfRange a then raiseFail .index else p) = p := by
  cases h : indexOutOfRange a
  · rfl
  · simp [h] at hok

/-- A plan makes as many mutations as R34 counts transmit events for its command and outcome. -/
theorem planOf_phases_length (i : Instr) : (planOf i).phases.length = transmitCount i := by
  rcases planOf_wellFormed i with ⟨hwf, hok⟩ | ⟨hwf, -, hnone⟩
  · simp only [transmitCount, hwf, if_true]
    cases i with
    | beginOp => rfl
    | endOp => rfl
    | releaseAll => rfl
    | reserved => rfl
    | buttonDown a => exact congrArg (·.phases.length) (indexGuard_of_ok hok)
    | buttonUp a => exact congrArg (·.phases.length) (indexGuard_of_ok hok)
    | buttonPress a => exact congrArg (·.phases.length) (indexGuard_of_ok hok)
    | axisSet a v =>
      rcases lookupAxis_cases a with ⟨id, -, h⟩ | ⟨-, h⟩
      · simp [planOf, planAxisSet, h]
      · simp [planOf, planAxisSet, h] at hok
    | axisReset a =>
      rcases lookupAxis_cases a with ⟨id, -, h⟩ | ⟨-, h⟩
      · simp [planOf, planAxisReset, h]
      · simp [planOf, planAxisReset, h] at hok
  · simp [transmitCount, hwf, hnone]

/-- Settles O20: a plan sends one report per mutation, and its mutations are as many as R34 says. -/
theorem transmitCounts : Obligations.TransmitCounts := by
  refine ⟨fun i s t h => ?_, State.resetBlock_sent⟩
  rw [exec_eq_perform, perform_eq] at h
  obtain rfl := Host.Outcome.next.inj h
  refine ⟨_, rfl, ?_⟩
  rw [List.length_map, statesAfter_length, planOf_phases_length]

end Sys2Proof.Machine
end

/-! ### Proofs: the command word and its decoder (spec/30_encoding.md) -/

section
namespace Sys2Proof.Machine

open Sys2Proof.Laws

/-! ### A word and its three fields (R41) -/

theorem packFields_eq_shifts (op : BitVec 4) (a b : Byte) :
    packFields op a b = (op.setWidth 20 <<< 16) ||| (a.setWidth 20 <<< 8) ||| b.setWidth 20 := by
  have h := BitVec.setWidth_append_append_eq_shiftLeft_setWidth_or (b := op) (b' := a) (b'' := b) (w''' := 20)
  rwa [BitVec.setWidth_eq] at h

theorem packFields_fields (w : CmdWord) : packFields (fieldOp w) (fieldA w) (fieldB w) = w := by
  have hopA : fieldOp w ++ fieldA w = w.extractLsb' 8 12 := BitVec.extractLsb'_append_extractLsb'_eq_extractLsb' rfl
  calc (fieldOp w ++ fieldA w) ++ fieldB w
      _ = w.extractLsb' 8 12 ++ fieldB w := by rw [hopA]
      _ = w := BitVec.extractLsb'_append_extractLsb'

/-- Every word is packed from some fields: what holds of all packed words holds of all words. -/
theorem exists_packFields (w : CmdWord) : ∃ op a b, w = packFields op a b :=
  ⟨fieldOp w, fieldA w, fieldB w, (packFields_fields w).symm⟩

/-- Settles O2: the packed word as shifts, its fields read back, and a word packed from its own fields. -/
theorem wordIsItsThreeFields : Obligations.WordIsItsThreeFields :=
  ⟨fun op a b => ⟨packFields_eq_shifts op a b, fieldOp_packFields op a b, fieldA_packFields op a b,
    fieldB_packFields op a b⟩, packFields_fields⟩

/-! ### What each opcode decodes to (R42, R47): one equation per arm of `decode` -/

theorem decode_packFields_begin {op : BitVec 4} (h : op.toNat = 0) (a b : Byte) :
    decode (packFields op a b) = .beginOp := by
  simp only [decode, fieldOp_packFields, h]

theorem decode_packFields_end {op : BitVec 4} (h : op.toNat = 1) (a b : Byte) :
    decode (packFields op a b) = .endOp := by
  simp only [decode, fieldOp_packFields, h]

theorem decode_packFields_buttonDown {op : BitVec 4} (h : op.toNat = 2) (a b : Byte) :
    decode (packFields op a b) = .buttonDown a := by
  simp only [decode, fieldOp_packFields, fieldA_packFields, h]

theorem decode_packFields_buttonUp {op : BitVec 4} (h : op.toNat = 3) (a b : Byte) :
    decode (packFields op a b) = .buttonUp a := by
  simp only [decode, fieldOp_packFields, fieldA_packFields, h]

theorem decode_packFields_buttonPress {op : BitVec 4} (h : op.toNat = 4) (a b : Byte) :
    decode (packFields op a b) = .buttonPress a := by
  simp only [decode, fieldOp_packFields, fieldA_packFields, h]

theorem decode_packFields_axisSet {op : BitVec 4} (h : op.toNat = 5) (a b : Byte) :
    decode (packFields op a b) = .axisSet a b := by
  simp only [decode, fieldOp_packFields, fieldA_packFields, fieldB_packFields, h]

theorem decode_packFields_axisReset {op : BitVec 4} (h : op.toNat = 6) (a b : Byte) :
    decode (packFields op a b) = .axisReset a := by
  simp only [decode, fieldOp_packFields, fieldA_packFields, h]

theorem decode_packFields_releaseAll {op : BitVec 4} (h : op.toNat = 7) (a b : Byte) :
    decode (packFields op a b) = .releaseAll := by
  simp only [decode, fieldOp_packFields, h]

theorem decode_packFields_reserved {op : BitVec 4} (h : 8 ≤ op.toNat) (a b : Byte) :
    decode (packFields op a b) = .reserved := by
  simp only [decode, fieldOp_packFields]
  split
  case h_9 => rfl
  all_goals omega

/-- Settles O1: each command is encoded with the opcode that decodes to it, its operands in the fields read back. -/
theorem decodeUndoesEncode : Obligations.DecodeUndoesEncode := by
  intro i
  cases i with
  | beginOp => exact decode_packFields_begin rfl 0 0
  | endOp => exact decode_packFields_end rfl 0 0
  | buttonDown index => exact decode_packFields_buttonDown rfl index 0
  | buttonUp index => exact decode_packFields_buttonUp rfl index 0
  | buttonPress index => exact decode_packFields_buttonPress rfl index 0
  | axisSet axisId value => exact decode_packFields_axisSet rfl axisId value
  | axisReset axisId => exact decode_packFields_axisReset rfl axisId 0
  | releaseAll => exact decode_packFields_releaseAll rfl 0 0
  | reserved => exact decode_packFields_reserved (op := 8) (by decide) 0 0

/-- Settles O6: each word is the one packed from its opcode and the operand fields written out here. -/
theorem writtenWordsDecode : Obligations.WrittenWordsDecode :=
  ⟨decode_packFields_begin (op := 0) rfl 0x00 0x00,
   decode_packFields_end (op := 1) rfl 0xFF 0xFF,
   decode_packFields_buttonDown (op := 2) rfl 0x03 0xFF,
   decode_packFields_buttonUp (op := 3) rfl 0x1F 0x00,
   decode_packFields_buttonPress (op := 4) rfl 0x08 0x00,
   decode_packFields_axisSet (op := 5) rfl 0x09 0x1A,
   decode_packFields_axisReset (op := 6) rfl 0x00 0xAB,
   decode_packFields_releaseAll (op := 7) rfl 0xAB 0xCD,
   decode_packFields_reserved (op := 0xA) (by decide) 0x03 0x10⟩

/-! ### The rows of the opcode table (R42) -/

/-- The row of R42 for an opcode: rows 0 to 7 in order, the reserved row for 8 to 15. -/
def opcodeRow (op : BitVec 4) : OpcodeRow :=
  opcodeTable[min op.toNat 8]'(Nat.lt_succ_of_le (Nat.min_le_right _ _))

theorem opcodeRow_mem (op : BitVec 4) : opcodeRow op ∈ opcodeTable := List.getElem_mem _

theorem opcodeRow_eq {op : BitVec 4} {n : Nat} (h : min op.toNat 8 = n) (hn : n < 9) :
    opcodeRow op = opcodeTable[n]'hn := by
  subst h
  rfl

theorem opcode_cases (op : BitVec 4) :
    op.toNat = 0 ∨ op.toNat = 1 ∨ op.toNat = 2 ∨ op.toNat = 3 ∨ op.toNat = 4 ∨ op.toNat = 5 ∨ op.toNat = 6 ∨
      op.toNat = 7 ∨ 8 ≤ op.toNat := by
  omega

/-- The row bears the mnemonic of the command decoded, whatever the operands are. -/
theorem opcodeRow_mnemonic (op : BitVec 4) (a b : Byte) :
    (opcodeRow op).mnemonic = (decode (packFields op a b)).mnemonic := by
  rcases opcode_cases op with h | h | h | h | h | h | h | h | h
  · rw [decode_packFields_begin h, opcodeRow_eq (n := 0) (by omega) (by decide)]; rfl
  · rw [decode_packFields_end h, opcodeRow_eq (n := 1) (by omega) (by decide)]; rfl
  · rw [decode_packFields_buttonDown h, opcodeRow_eq (n := 2) (by omega) (by decide)]; rfl
  · rw [decode_packFields_buttonUp h, opcodeRow_eq (n := 3) (by omega) (by decide)]; rfl
  · rw [decode_packFields_buttonPress h, opcodeRow_eq (n := 4) (by omega) (by decide)]; rfl
  · rw [decode_packFields_axisSet h, opcodeRow_eq (n := 5) (by omega) (by decide)]; rfl
  · rw [decode_packFields_axisReset h, opcodeRow_eq (n := 6) (by omega) (by decide)]; rfl
  · rw [decode_packFields_releaseAll h, opcodeRow_eq (n := 7) (by omega) (by decide)]; rfl
  · rw [decode_packFields_reserved h, opcodeRow_eq (n := 8) (by omega) (by decide)]; rfl

theorem packFields_and (op op' : BitVec 4) (a a' b b' : Byte) :
    packFields op a b &&& packFields op' a' b' = packFields (op &&& op') (a &&& a') (b &&& b') :=
  BitVec.and_append.trans (congrArg (· ++ (b &&& b')) BitVec.and_append)

/-- No row looks at an operand field. -/
theorem opcodeTable_operands_zero :
    ∀ r ∈ opcodeTable, r.mask = packFields (fieldOp r.mask) 0 0 ∧ r.pattern = packFields (fieldOp r.pattern) 0 0 := by
  decide

/-- Selecting by a row of the table is a comparison of opcodes. -/
theorem selectedBy_packFields {r : OpcodeRow} (hr : r ∈ opcodeTable) (op : BitVec 4) (a b : Byte) :
    r.selectedBy (packFields op a b) = true ↔ op &&& fieldOp r.mask = fieldOp r.pattern := by
  obtain ⟨hmask, hpattern⟩ := opcodeTable_operands_zero r hr
  have hand : packFields op a b &&& r.mask = packFields (op &&& fieldOp r.mask) 0 0 := by
    rw [hmask, packFields_and, fieldOp_packFields]
    simp
  rw [OpcodeRow.selectedBy, decide_eq_true_iff, hand]
  constructor
  · intro h
    rw [← h, fieldOp_packFields]
  · intro h
    rw [h, ← hpattern]

/-- On the sixteen opcodes the nine rows are disjoint and leave none out. -/
theorem opcodeTable_partitions_opcodes :
    ∀ r ∈ opcodeTable, ∀ op : BitVec 4, op &&& fieldOp r.mask = fieldOp r.pattern ↔ r = opcodeRow op := by
  decide

/-- Settles O3: the decoder's equations, the table as written, and the partition of the sixteen opcodes, which is
the partition of all words because a row compares opcodes only. -/
theorem opcodeMapPartitionsAllWords : Obligations.OpcodeMapPartitionsAllWords := by
  refine ⟨fun a b => ⟨decode_packFields_begin rfl a b, decode_packFields_end rfl a b,
    decode_packFields_buttonDown rfl a b, decode_packFields_buttonUp rfl a b, decode_packFields_buttonPress rfl a b,
    decode_packFields_axisSet rfl a b, decode_packFields_axisReset rfl a b, decode_packFields_releaseAll rfl a b,
    fun op h => decode_packFields_reserved h a b⟩, rfl, fun r w => decide_eq_true_iff, fun w => ?_⟩
  obtain ⟨op, a, b, rfl⟩ := exists_packFields w
  exact ⟨opcodeRow op, opcodeRow_mem op, opcodeRow_mnemonic op a b, fun r hr =>
    (selectedBy_packFields hr op a b).trans (opcodeTable_partitions_opcodes r hr op)⟩

/-! ### Unused operand fields (R49) -/

/-- Settles O4: the decoder's equation for such an opcode does not mention the field; the encoder packs 0 into it. -/
theorem unusedFieldsAreIgnored : Obligations.UnusedFieldsAreIgnored := by
  refine ⟨fun op a b a' b' => ⟨?_, ?_⟩, fun a b => ?_⟩
  · rintro (h | h | h)
    · rw [decode_packFields_begin h, decode_packFields_begin h]
    · rw [decode_packFields_end h, decode_packFields_end h]
    · rcases Nat.eq_or_lt_of_le h with h7 | h8
      · rw [decode_packFields_releaseAll h7.symm, decode_packFields_releaseAll h7.symm]
      · rw [decode_packFields_reserved h8, decode_packFields_reserved h8]
  · rintro (h | h | h | h)
    · rw [decode_packFields_buttonDown h, decode_packFields_buttonDown h]
    · rw [decode_packFields_buttonUp h, decode_packFields_buttonUp h]
    · rw [decode_packFields_buttonPress h, decode_packFields_buttonPress h]
    · rw [decode_packFields_axisReset h, decode_packFields_axisReset h]
  · simp only [encode, fieldA_packFields, fieldB_packFields, and_self]

/-! ### The axis identifiers (R45) -/

/-- Settles O5: an identifier is found by its number, none has a number of 10 or more, and the table of names and the
reading of a field are the rule's, row by row. -/
theorem axisIdentifierTable : Obligations.AxisIdentifierTable :=
  ⟨⟨lookupAxis_code .x, lookupAxis_code .y, lookupAxis_code .z, lookupAxis_code .xRot, lookupAxis_code .yRot,
    lookupAxis_code .zRot, lookupAxis_code .throttle, lookupAxis_code .rudder, lookupAxis_code .hat1,
    lookupAxis_code .hat2⟩, fun _ h => lookupAxis_eq_none h, rfl,
    fun _ => ⟨rfl, rfl, rfl, rfl, rfl, rfl, rfl, rfl, rfl, rfl⟩⟩

/-! ### The assembler (R50) -/

/-- A line is assembled to the word of the command it spells. -/
theorem assemble_of_command {line : String} {i : Instr} (h : assembleInstr line = some i) :
    assemble line = some (encode i) := by
  rw [assemble, h, Option.map_some]

theorem assemble_of_no_command {line : String} (h : assembleInstr line = none) : assemble line = none := by
  rw [assemble, h, Option.map_none]

/-- Settles O7: the command that each line spells, and its word. -/
theorem assemblerForms : Obligations.AssemblerForms :=
  ⟨assemble_of_command (i := .beginOp) (by decide),
   assemble_of_command (i := .endOp) (by decide),
   assemble_of_command (i := .releaseAll) (by decide),
   assemble_of_command (i := .buttonDown 3) (by decide),
   assemble_of_command (i := .buttonUp 31) (by decide),
   assemble_of_command (i := .buttonPress 255) (by decide),
   assemble_of_command (i := .axisSet 0 16) (by decide),
   assemble_of_command (i := .axisSet 99 119) (by decide),
   assemble_of_command (i := .axisReset 9) (by decide),
   assemble_of_no_command (by decide),
   assemble_of_no_command (by decide)⟩

/-! ### Reserved opcodes (R47) -/

theorem eight_le_fieldOp {w : CmdWord} (h : w.getLsbD 19 = true) : 8 ≤ (fieldOp w).toNat := by
  have hmsb : (fieldOp w).msb = true := by
    rw [BitVec.msb_eq_getLsbD_last, fieldOp, BitVec.getLsbD_extractLsb']
    simpa using h
  exact BitVec.toNat_ge_of_msb_true hmsb

theorem decode_of_bit19 {w : CmdWord} (h : w.getLsbD 19 = true) : decode w = .reserved := by
  rw [← packFields_fields w]
  exact decode_packFields_reserved (eight_le_fieldOp h) (fieldA w) (fieldB w)

/-- Performing a failed command appends `FAIL` to the results and does nothing else (R96). -/
theorem perform_raiseFail (c : FailCause) (s : State) :
    s.perform (raiseFail c) = { s with results := s.results ++ [.fail] } := rfl

/-- Settles O33: bit 19 makes the opcode 8 or more, and the reserved plan is the failing one. -/
theorem reservedOpcodesFail : Obligations.ReservedOpcodesFail := by
  intro s w h
  refine ⟨decode_of_bit19 h, ?_⟩
  rw [decode_of_bit19 h, exec_eq_perform]
  exact congrArg Host.Outcome.next (perform_raiseFail .opcode s)

end Sys2Proof.Machine
end

/-! ### Proofs: the report encoder and the ports (spec/40_report_encoder.md) -/

section
namespace Sys2Proof.Machine

open Sys2Proof.Laws

/-! ### Every step answers, and sends nothing but reports (R57, R60) -/

/-- Settles O18: `txEvent` is that event. -/
theorem transmitAppendsTheReport : Obligations.TransmitAppendsTheReport :=
  fun _ => rfl

/-- Settles O11: a command is performed by its plan, and each input of a step has its next state. -/
theorem everyStepCompletes : Obligations.EveryStepCompletes :=
  ⟨fun i s => ⟨_, exec_eq_perform i s⟩, fun s => ⟨_, step_eq s⟩⟩

/-- What a step hands to the transport: reports of states, added to what was sent before. -/
theorem step_sent {s t : State} (h : step s = .next t) :
    ∃ shown : List JoystickState, t.sent = s.sent ++ shown.map txEvent := by
  rw [step_eq] at h
  obtain rfl := Host.Outcome.next.inj h
  rcases s.caller with _ | ⟨w | _ | ⟨w, n⟩, rest⟩
  case nil => exact ⟨[], by simp⟩
  case cons.command => exact ⟨_, congrArg State.sent (perform_eq (s.withCaller rest) _)⟩
  case cons.reset => exact ⟨[], by simp⟩
  case cons.cutShort => exact ⟨_, congrArg State.sent (abandon_eq (s.withCaller rest) _ n)⟩

/-- Settles O44: what a step adds to the transmit events are reports, and `txEvent` fills in the ID and the length. -/
theorem stepKeepsTransmitsWellFormed : Obligations.StepKeepsTransmitsWellFormed := by
  intro s t hs hstep e he
  obtain ⟨shown, hsent⟩ := step_sent hstep
  rw [hsent, List.mem_append] at he
  rcases he with hold | hnew
  · exact hs e hold
  · obtain ⟨S, -, rfl⟩ := List.mem_map.mp hnew
    exact ⟨txEvent_reportId S, txEvent_length S⟩

/-! ### One cycle at the boundary: what the log records of it (R61) -/

theorem record_reset_idle {p : PortState} {log : PortLog} {pin : PortIn} (hr : pin.rst = true)
    (hc : log.current = none) :
    log.record p pin = { log with inputs := log.inputs ++ [.reset], current := none } := by
  simp [PortLog.record, PortState.handedOver, PortState.responded, PortState.pins, hr, hc]

theorem record_reset_command {p : PortState} {log : PortLog} {pin : PortIn} {w : CmdWord} {n : Nat}
    (hr : pin.rst = true) (hc : log.current = some (w, n)) :
    log.record p pin = { log with inputs := log.inputs ++ [.cutShort w n], current := none } := by
  simp [PortLog.record, PortState.handedOver, PortState.responded, PortState.pins, hr, hc]

theorem record_idle_accept {p : PortState} {log : PortLog} {pin : PortIn} (hr : pin.rst = false) (hp : p.ctl = .idle)
    (hv : pin.cmdValid = true) : log.record p pin = { log with current := some (pin.cmd, 0) } := by
  simp [PortLog.record, PortState.accepted, PortState.handedOver, PortState.responded, PortState.pins, hr, hp, hv]

theorem record_idle_wait {p : PortState} {log : PortLog} {pin : PortIn} (hr : pin.rst = false) (hp : p.ctl = .idle)
    (hv : pin.cmdValid = false) : log.record p pin = log := by
  simp [PortLog.record, PortState.accepted, PortState.handedOver, PortState.responded, PortState.pins, hr, hp, hv]

theorem record_busy {p : PortState} {log : PortLog} {pin : PortIn} {todo : List Mutation} {r : Result}
    (hr : pin.rst = false) (hp : p.ctl = .busy todo r) : log.record p pin = log := by
  simp [PortLog.record, PortState.accepted, PortState.handedOver, PortState.responded, PortState.pins, hr, hp]

theorem record_sending_wait {p : PortState} {log : PortLog} {pin : PortIn} {todo : List Mutation} {r : Result}
    (hr : pin.rst = false) (hp : p.ctl = .sending todo r) (ht : pin.txReady = false) : log.record p pin = log := by
  simp [PortLog.record, PortState.accepted, PortState.handedOver, PortState.responded, PortState.pins, hr, hp, ht]

theorem record_sending_take {p : PortState} {log : PortLog} {pin : PortIn} {todo : List Mutation} {r : Result}
    {w : CmdWord} {n : Nat} (hr : pin.rst = false) (hp : p.ctl = .sending todo r) (ht : pin.txReady = true)
    (hc : log.current = some (w, n)) :
    log.record p pin = { log with sent := log.sent ++ [txEvent p.joystick], current := some (w, n + 1) } := by
  simp [PortLog.record, PortState.accepted, PortState.handedOver, PortState.responded, PortState.pins, hr, hp, ht, hc]

theorem record_responding {p : PortState} {log : PortLog} {pin : PortIn} {r : Result} {w : CmdWord} {n : Nat}
    (hr : pin.rst = false) (hp : p.ctl = .responding r) (hc : log.current = some (w, n)) :
    log.record p pin =
      { log with results := log.results ++ [r], inputs := log.inputs ++ [.command w], current := none } := by
  simp [PortLog.record, PortState.accepted, PortState.handedOver, PortState.responded, PortState.pins, hr, hp, hc]

/-! ### The atomic run behind a log, one input further (R120) -/

/-- A run has one end, so it goes on from there. -/
theorem runsTo_snoc {s a : State} {inputs : List Input} (h : RunsTo s inputs a) (i : Input) :
    RunsTo s (inputs ++ [i]) (a.applyInput i) := by
  have hend := h.symm.trans (runsTo_applyInputs s inputs)
  obtain rfl := Host.Outcome.next.inj hend
  rw [applyInput_withCaller]
  simpa [applyInputs_append] using runsTo_applyInputs s (inputs ++ [i])

theorem finalState_append (S : JoystickState) (ms ms' : List Mutation) :
    finalState S (ms ++ ms') = finalState (finalState S ms) ms' :=
  List.foldl_append

/-- The first reports of a command are those of the mutations made so far, while no more than those are counted. -/
theorem statesAfter_take_made (S : JoystickState) (made todo : List Mutation) {n : Nat} (h : n ≤ made.length) :
    (statesAfter S (made ++ todo)).take n = (statesAfter S made).take n := by
  rw [statesAfter_append, List.take_append_of_le_length (by rwa [statesAfter_length])]

/-- When all reports but the last have been handed over, the last is that of the registers as they are. -/
theorem statesAfter_take_succ (S : JoystickState) (made : List Mutation) {n : Nat} (h : n + 1 = made.length) :
    (statesAfter S made).take (n + 1) = (statesAfter S made).take n ++ [finalState S made] := by
  obtain ⟨before, m, rfl⟩ : ∃ before m, made = before ++ [m] := by
    rcases List.eq_nil_or_concat made with rfl | ⟨before, m, rfl⟩
    · simp at h
    · exact ⟨before, m, by simp⟩
  have hn : n = (statesAfter S before).length := by simpa [statesAfter_length] using h
  subst hn
  rw [statesAfter_append, finalState_append]
  simp

/-! ### The agreement, by place (R63) -/

/-- The body of `PortsAgree` while the command `w` is in progress and `n` of its reports have been handed over: `a` is
where the atomic machine stands before that command. -/
def InCommand (a : State) (p : PortState) (sent : List TxEvent) (w : CmdWord) (n : Nat) : Prop :=
  ∃ made todo : List Mutation, (planOf (decode w)).phases = made ++ todo ∧
    p.joystick = finalState a.joystick made ∧
    sent = a.sent ++ ((statesAfter a.joystick made).take n).map txEvent ∧
    ((p.ctl = .busy todo (planOf (decode w)).result ∧ n = made.length) ∨
      (p.ctl = .sending todo (planOf (decode w)).result ∧ n + 1 = made.length) ∨
      (p.ctl = .responding (planOf (decode w)).result ∧ todo = [] ∧ n = made.length))

theorem portsAgree_iff_of_none {p : PortState} {log : PortLog} (hc : log.current = none) :
    PortsAgree p log ↔ ∃ a : State, RunsTo State.reset log.inputs a ∧ log.results = a.results ∧
      p.ctl = .idle ∧ p.joystick = a.joystick ∧ log.sent = a.sent := by
  simp only [PortsAgree, hc]

theorem portsAgree_iff_of_some {p : PortState} {log : PortLog} {w : CmdWord} {n : Nat}
    (hc : log.current = some (w, n)) :
    PortsAgree p log ↔ ∃ a : State, RunsTo State.reset log.inputs a ∧ log.results = a.results ∧
      InCommand a p log.sent w n := by
  simp only [PortsAgree, hc, InCommand]

theorem InCommand.not_idle {a : State} {p : PortState} {sent : List TxEvent} {w : CmdWord} {n : Nat}
    (h : InCommand a p sent w n) : p.ctl ≠ .idle := by
  obtain ⟨made, todo, -, -, -, ⟨hp, -⟩ | ⟨hp, -⟩ | ⟨hp, -⟩⟩ := h <;> simp [hp]

/-- What was handed over is what the atomic machine sends when the command is cut short there (R107). -/
theorem InCommand.abandon_sent {a : State} {p : PortState} {sent : List TxEvent} {w : CmdWord} {n : Nat}
    (h : InCommand a p sent w n) : (a.applyInput (.cutShort w n)).sent = sent := by
  obtain ⟨made, todo, hphases, -, hsent, hplace⟩ := h
  have hn : n ≤ made.length := by
    rcases hplace with ⟨-, hn⟩ | ⟨-, hn⟩ | ⟨-, -, hn⟩ <;> omega
  rw [State.applyInput, abandon_eq, hphases, statesAfter_take_made _ _ _ hn, hsent]

theorem agree_after_reset {p : PortState} {log : PortLog} {pin : PortIn} (hr : pin.rst = true)
    (h : PortsAgree p log) : PortsAgree .afterReset (log.record p pin) := by
  rcases hc : log.current with _ | ⟨w, n⟩
  case none =>
    obtain ⟨a, hrun, hresults, -, -, hsent⟩ := (portsAgree_iff_of_none hc).mp h
    rw [record_reset_idle hr hc]
    exact (portsAgree_iff_of_none rfl).mpr ⟨_, runsTo_snoc hrun .reset, hresults, rfl, rfl, hsent⟩
  case some =>
    obtain ⟨a, hrun, hresults, hin⟩ := (portsAgree_iff_of_some hc).mp h
    have hresults' : log.results = (a.applyInput (.cutShort w n)).results := by
      rw [State.applyInput, abandon_eq, hresults]
    rw [record_reset_command hr hc]
    exact (portsAgree_iff_of_none rfl).mpr
      ⟨_, runsTo_snoc hrun (.cutShort w n), hresults', rfl, rfl, hin.abandon_sent.symm⟩

theorem agree_after_idle {p : PortState} {log : PortLog} {pin : PortIn} (go : Bool) (hr : pin.rst = false)
    (hc : log.current = none) (h : PortsAgree p log) : PortsAgree (p.cycle pin go) (log.record p pin) := by
  obtain ⟨a, hrun, hresults, hp, hj, hsent⟩ := (portsAgree_iff_of_none hc).mp h
  cases hv : pin.cmdValid with
  | false => rwa [cycle_idle_wait go hr hp hv, record_idle_wait hr hp hv]
  | true =>
    rw [cycle_idle_accept go hr hp hv, record_idle_accept hr hp hv]
    have hin : InCommand a { p with ctl := .busy (planOf (decode pin.cmd)).phases (planOf (decode pin.cmd)).result }
        log.sent pin.cmd 0 :=
      ⟨[], _, rfl, hj, by simpa using hsent, .inl ⟨rfl, rfl⟩⟩
    exact (portsAgree_iff_of_some rfl).mpr ⟨a, hrun, hresults, hin⟩

theorem InCommand.after_busy {a : State} {p : PortState} {pin : PortIn} {sent : List TxEvent} {w : CmdWord}
    {made todo : List Mutation} (go : Bool) (hr : pin.rst = false)
    (hphases : (planOf (decode w)).phases = made ++ todo) (hj : p.joystick = finalState a.joystick made)
    (hsent : sent = a.sent ++ ((statesAfter a.joystick made).take made.length).map txEvent)
    (hp : p.ctl = .busy todo (planOf (decode w)).result) :
    InCommand a (p.cycle pin go) sent w made.length := by
  cases go with
  | false =>
    rw [cycle_busy_wait hr hp]
    exact ⟨made, todo, hphases, hj, hsent, .inl ⟨hp, rfl⟩⟩
  | true =>
    cases todo with
    | nil =>
      rw [cycle_busy_done hr hp]
      exact ⟨made, [], hphases, hj, hsent, .inr (.inr ⟨rfl, rfl, rfl⟩)⟩
    | cons m rest =>
      rw [cycle_busy_mutate hr hp]
      refine ⟨made ++ [m], rest, by simpa using hphases, ?_, ?_, .inr (.inl ⟨rfl, by simp⟩)⟩
      · rw [finalState_append, hj]; rfl
      · rwa [statesAfter_take_made _ _ _ le_rfl]

theorem InCommand.after_handover {a : State} {p : PortState} {sent : List TxEvent} {w : CmdWord} {n : Nat}
    {made todo : List Mutation} (hphases : (planOf (decode w)).phases = made ++ todo)
    (hj : p.joystick = finalState a.joystick made)
    (hsent : sent = a.sent ++ ((statesAfter a.joystick made).take n).map txEvent) (hn : n + 1 = made.length) :
    InCommand a { p with ctl := .busy todo (planOf (decode w)).result } (sent ++ [txEvent p.joystick]) w (n + 1) := by
  refine ⟨made, todo, hphases, hj, ?_, .inl ⟨rfl, hn⟩⟩
  rw [statesAfter_take_succ _ _ hn, hsent, hj]
  simp

/-- The response ends the command: by then its reports are out and its registers written, as performing it does. -/
theorem perform_of_all_made (a : State) {w : CmdWord} {made : List Mutation}
    (hphases : (planOf (decode w)).phases = made) :
    a.applyInput (.command w) =
      { joystick := finalState a.joystick made
        caller := a.caller
        sent := a.sent ++ ((statesAfter a.joystick made).take made.length).map txEvent
        results := a.results ++ [(planOf (decode w)).result] } := by
  rw [State.applyInput, perform_eq, hphases, ← statesAfter_take, List.take_length]
  rfl

theorem agree_in_command {p : PortState} {log : PortLog} {pin : PortIn} {w : CmdWord} {n : Nat} (go : Bool)
    (hr : pin.rst = false) (hc : log.current = some (w, n)) (h : PortsAgree p log) :
    PortsAgree (p.cycle pin go) (log.record p pin) := by
  obtain ⟨a, hrun, hresults, made, todo, hphases, hj, hsent, hplace⟩ := (portsAgree_iff_of_some hc).mp h
  rcases hplace with ⟨hp, rfl⟩ | ⟨hp, hn⟩ | ⟨hp, rfl, rfl⟩
  · rw [record_busy hr hp]
    exact (portsAgree_iff_of_some hc).mpr ⟨a, hrun, hresults, .after_busy go hr hphases hj hsent hp⟩
  · cases ht : pin.txReady with
    | false => rwa [cycle_sending_wait go hr hp ht, record_sending_wait hr hp ht]
    | true =>
      rw [cycle_sending_take go hr hp ht, record_sending_take hr hp ht hc]
      exact (portsAgree_iff_of_some rfl).mpr ⟨a, hrun, hresults, .after_handover hphases hj hsent hn⟩
  · rw [cycle_responding go hr hp, record_responding hr hp hc]
    have hcommand := perform_of_all_made a (hphases.trans (List.append_nil made))
    refine (portsAgree_iff_of_none rfl).mpr ⟨_, runsTo_snoc hrun (.command w), ?_⟩
    rw [hcommand]
    exact ⟨congrArg (· ++ _) hresults, rfl, hj, hsent⟩

/-- Settles O54: a reset, a cycle with no command in progress, or a cycle inside a command. -/
theorem portCycleKeepsTheAgreement : Obligations.PortCycleKeepsTheAgreement := by
  intro p log pin go h
  cases hr : pin.rst with
  | true =>
    rw [cycle_reset p go hr]
    exact agree_after_reset hr h
  | false =>
    rcases hc : log.current with _ | ⟨w, n⟩
    · exact agree_after_idle go hr hc h
    · exact agree_in_command go hr hc h

/-! ### Runs of cycles (R120) -/

theorem agree_afterReset_empty : PortsAgree .afterReset .empty :=
  (portsAgree_iff_of_none rfl).mpr ⟨State.reset, rfl, rfl, rfl, rfl, rfl⟩

theorem portRun_agree {p : PortState} {log : PortLog} (h : PortsAgree p log) (cycles : List (PortIn × Bool)) :
    PortsAgree (portRun p log cycles).1 (portRun p log cycles).2 := by
  induction cycles generalizing p log with
  | nil => exact h
  | cons c cycles ih => exact ih (portCycleKeepsTheAgreement p log c.1 c.2 h)

/-- What the agreement says of the run over the log's inputs, the command in progress counted as cut short. -/
theorem PortsAgree.atomicRun {p : PortState} {log : PortLog} (h : PortsAgree p log) :
    ∃ t, RunsTo State.reset log.atomicInputs t ∧ t.sent = log.sent ∧ t.results = log.results ∧
      (p.ctl = .idle ↔ log.current = none) ∧ (p.ctl = .idle → t.joystick = p.joystick) := by
  rcases hc : log.current with _ | ⟨w, n⟩
  case none =>
    obtain ⟨a, hrun, hresults, hp, hj, hsent⟩ := (portsAgree_iff_of_none hc).mp h
    refine ⟨a, ?_, hsent.symm, hresults.symm, by simp [hp], fun _ => hj.symm⟩
    simpa [PortLog.atomicInputs, hc] using hrun
  case some =>
    obtain ⟨a, hrun, hresults, hin⟩ := (portsAgree_iff_of_some hc).mp h
    refine ⟨a.applyInput (.cutShort w n), ?_, hin.abandon_sent, ?_, by simp [hin.not_idle],
      fun hp => absurd hp hin.not_idle⟩
    · simpa [PortLog.atomicInputs, hc] using runsTo_snoc hrun (.cutShort w n)
    · rw [State.applyInput, abandon_eq, hresults]

/-- Settles O47: the agreement holds after reset and every cycle keeps it, so the run ends in agreement. -/
theorem portsRefineTheAtomicStep : Obligations.PortsRefineTheAtomicStep := by
  intro cycles p log hrun
  have hagree := portRun_agree agree_afterReset_empty cycles
  rw [hrun] at hagree
  exact hagree.atomicRun

theorem cycle_with_txStatus (p : PortState) (pin : PortIn) (go status : Bool) :
    p.cycle { pin with txStatus := status } go = p.cycle pin go := rfl

theorem record_with_txStatus (log : PortLog) (p : PortState) (pin : PortIn) (status : Bool) :
    log.record p { pin with txStatus := status } = log.record p pin := rfl

/-- Settles O52: neither the cycle nor the log looks at the status. -/
theorem transportStatusIsIgnored : Obligations.TransportStatusIsIgnored := by
  intro p log cycles status
  induction cycles generalizing p log with
  | nil => rfl
  | cons c cycles ih =>
    simp only [List.map_cons, portRun, cycle_with_txStatus, record_with_txStatus]
    exact ih _ _

/-! ### The pins, by place in a command (R61, R63) -/

theorem cmdReady_of_not_idle {p : PortState} (rst : Bool) (h : p.ctl ≠ .idle) : (p.pins rst).cmdReady = false := by
  simp [PortState.pins, h]

theorem accepted_of_not_idle {p : PortState} (pin : PortIn) (h : p.ctl ≠ .idle) : p.accepted pin = none := by
  simp [PortState.accepted, cmdReady_of_not_idle _ h]

/-- Outside reset, only a block that is busy with a mutation left changes a register. -/
theorem cycle_joystick_cases {p : PortState} {pin : PortIn} (go : Bool) (hr : pin.rst = false) :
    (p.cycle pin go).joystick = p.joystick ∨
      ∃ m rest result, p.ctl = .busy (m :: rest) result ∧ (p.cycle pin go).joystick = m.apply p.joystick := by
  cases hp : p.ctl with
  | idle =>
    cases hv : pin.cmdValid with
    | false => exact .inl (by rw [cycle_idle_wait go hr hp hv])
    | true => exact .inl (by rw [cycle_idle_accept go hr hp hv])
  | busy todo r =>
    cases go with
    | false => exact .inl (by rw [cycle_busy_wait hr hp])
    | true =>
      cases todo with
      | nil => exact .inl (by rw [cycle_busy_done hr hp])
      | cons m rest => exact .inr ⟨m, rest, r, rfl, by rw [cycle_busy_mutate hr hp]⟩
  | sending todo r =>
    cases ht : pin.txReady with
    | false => exact .inl (by rw [cycle_sending_wait go hr hp ht])
    | true => exact .inl (by rw [cycle_sending_take go hr hp ht])
  | responding r => exact .inl (by rw [cycle_responding go hr hp])

/-- Settles O48, by the pins of a block that is not idle and by what a cycle can do to the registers. -/
theorem busyBlockAcceptsNothing : Obligations.BusyBlockAcceptsNothing := by
  intro p pin go hp
  refine ⟨cmdReady_of_not_idle _ hp, accepted_of_not_idle pin hp, fun hne => ?_⟩
  cases hr : pin.rst with
  | true => exact .inl rfl
  | false => exact .inr ((cycle_joystick_cases go hr).resolve_left hne)

theorem respValid_iff (p : PortState) : (p.pins false).respValid = true ↔ ∃ r, p.ctl = .responding r := by
  cases hp : p.ctl <;> simp [PortState.pins, hp]

theorem respOk_of_responding {p : PortState} {r : Result} (hp : p.ctl = .responding r) :
    (p.pins false).respOk = some r.bit := by
  simp [PortState.pins, hp]

theorem cycle_of_responding {p : PortState} {r : Result} (pin : PortIn) (go : Bool) (hp : p.ctl = .responding r) :
    (p.cycle pin go).ctl = .idle := by
  cases hr : pin.rst with
  | true => rw [cycle_reset p go hr]; rfl
  | false => rw [cycle_responding go hr hp]

/-- Settles O53: the cycle after a response is idle, with reset or without. -/
theorem responseAndConstantPins : Obligations.ResponseAndConstantPins := by
  refine ⟨fun p pin go h => ?_, fun p r hp => ⟨(respValid_iff p).mpr ⟨r, hp⟩, ?_⟩, fun p rst => ⟨rfl, rfl⟩⟩
  · obtain ⟨r, hp⟩ := (respValid_iff p).mp h
    rw [← Bool.not_eq_true, respValid_iff, cycle_of_responding pin go hp]
    simp
  · rw [respOk_of_responding hp]
    cases r <;> rfl

/-! ### Byte 6 by its nibbles (R29, R55) -/

theorem hatByte_eq_nibbles (h1 h2 : Byte) : hatByte h1 h2 = h2.extractLsb' 0 4 ++ h1.extractLsb' 0 4 := by
  apply BitVec.eq_of_getLsbD_eq
  intro j hj
  rw [hatByte_getLsbD, BitVec.getLsbD_append, BitVec.getLsbD_extractLsb', BitVec.getLsbD_extractLsb']
  by_cases h : j < 4
  · simp [h]
  · have hhigh : j - 4 < 4 := by omega
    simp [h, hj, hhigh]

theorem hatByte_low (h1 h2 : Byte) : (hatByte h1 h2).extractLsb' 0 4 = h1.extractLsb' 0 4 := by
  rw [hatByte_eq_nibbles]
  exact extract_append_low _ _

theorem hatByte_high (h1 h2 : Byte) : (hatByte h1 h2).extractLsb' 4 4 = h2.extractLsb' 0 4 := by
  rw [hatByte_eq_nibbles]
  exact (extract_append_high _ _ 0 4).trans (extract_whole _)

theorem hatByte_of_nibbles (b : Byte) :
    hatByte ((b.extractLsb' 0 4).setWidth 8) ((b.extractLsb' 4 4).setWidth 8) = b := by
  have hlow (x : BitVec 4) : (x.setWidth 8).extractLsb' 0 4 = x := by
    rw [← BitVec.setWidth_eq_extractLsb' (by decide), BitVec.setWidth_setWidth_of_le _ (by decide), BitVec.setWidth_eq]
  rw [hatByte_eq_nibbles, hlow, hlow]
  exact BitVec.extractLsb'_append_extractLsb'

/-- Settles O12: byte 6 by its nibbles, and the first four bytes as the slices that the 4-byte write puts there. -/
theorem reportLayout : Obligations.ReportLayout := by
  refine ⟨fun S => ?_, fun S r => ⟨_, memWrite_buttons r S.buttons, fun k hk => ?_⟩, fun S => rfl,
    fun S h1 h2 => ?_, rfl⟩
  · rw [← hatByte_eq_nibbles]
    rfl
  · rw [encodeReport_buttonByte S hk]
    interval_cases k <;> simp
  · have hbyte : (encodeReport S)[6]? = some (hatByte S.hatSw1 S.hatSw2) := rfl
    rw [hbyte, h1, h2]
    rfl

/-! ### The report as a number of 104 bits (R62) -/

/-- The four slices that a little-endian word is cut into, put together again (R27). -/
theorem extract_bytes_append {n : Nat} (x : BitVec n) :
    x.extractLsb' 24 8 ++ x.extractLsb' 16 8 ++ x.extractLsb' 8 8 ++ x.extractLsb' 0 8 = x.extractLsb' 0 32 := by
  have h16 : x.extractLsb' 24 8 ++ x.extractLsb' 16 8 = x.extractLsb' 16 16 :=
    BitVec.extractLsb'_append_extractLsb'_eq_extractLsb' rfl
  have h8 : x.extractLsb' 16 16 ++ x.extractLsb' 8 8 = x.extractLsb' 8 24 :=
    BitVec.extractLsb'_append_extractLsb'_eq_extractLsb' rfl
  rw [h16, h8]
  exact BitVec.extractLsb'_append_extractLsb'_eq_extractLsb' rfl

/-- The button mask read back from the first four bytes. -/
theorem encodeReport_buttonBytes_append (S : JoystickState) :
    (encodeReport S)[3] ++ (encodeReport S)[2] ++ (encodeReport S)[1] ++ (encodeReport S)[0] = S.buttons :=
  (extract_bytes_append S.buttons).trans (extract_whole S.buttons)

theorem txData_lane (r : Report) {k : Nat} (hk : k < 13) : (txData r).extractLsb' (8 * k) 8 = r[k] := by
  unfold txData
  interval_cases k <;>
    simp (disch := decide) only [BitVec.extractLsb'_append_eq_of_le, BitVec.extractLsb'_append_eq_of_add_le,
      extract_whole, Nat.reduceMul, Nat.reduceSub]

theorem txData_word (r : Report) : (txData r).extractLsb' 0 32 = r[3] ++ r[2] ++ r[1] ++ r[0] := by
  rw [← extract_bytes_append, ← txData_lane r (k := 0) (by decide), ← txData_lane r (k := 1) (by decide),
    ← txData_lane r (k := 2) (by decide), ← txData_lane r (k := 3) (by decide)]

/-- A nibble of byte 6 in `tx_data`. -/
theorem txData_hatNibble (r : Report) {j : Nat} (hj : j + 4 ≤ 8) :
    (txData r).extractLsb' (48 + j) 4 = r[6].extractLsb' j 4 := by
  rw [← extract_extract _ 48 8 j 4 hj]
  exact congrArg _ (txData_lane r (k := 6) (by decide))

/-- Settles O17: every byte is in its lane, and every field is where its byte is. -/
theorem txDataLanes : Obligations.TxDataLanes := by
  refine ⟨fun r k hk => ?_, fun S => ?_, by decide⟩
  · rw [txData_lane r hk, Vector.getElem?_eq_getElem hk]
  · have lane {k : Nat} (hk : k < 13) := txData_lane (encodeReport S) hk
    have nibble {j : Nat} (hj : j + 4 ≤ 8) := txData_hatNibble (encodeReport S) hj
    exact ⟨(txData_word _).trans (encodeReport_buttonBytes_append S), lane (k := 4) (by decide),
      lane (k := 5) (by decide), (nibble (j := 0) (by decide)).trans (hatByte_low _ _),
      (nibble (j := 4) (by decide)).trans (hatByte_high _ _), lane (k := 7) (by decide), lane (k := 8) (by decide),
      lane (k := 9) (by decide), lane (k := 10) (by decide), lane (k := 11) (by decide), lane (k := 12) (by decide)⟩

/-! ### What a report tells of the registers (R56) -/

theorem encodeReport_axisByte (S : JoystickState) {id : AxisId} (h1 : id ≠ .hat1) (h2 : id ≠ .hat2) :
    (encodeReport S)[reportByte id]? = some (S.readAxis id) := by
  cases id with
  | hat1 => exact absurd rfl h1
  | hat2 => exact absurd rfl h2
  | _ => rfl

/-- The button mask and the ten axis registers are all the registers (R10, R12). -/
theorem joystick_ext {S T : JoystickState} (hb : S.buttons = T.buttons)
    (ha : ∀ id : AxisId, S.readAxis id = T.readAxis id) : S = T := by
  cases S
  cases T
  rw [JoystickState.mk.injEq]
  exact ⟨hb, ha .x, ha .y, ha .z, ha .xRot, ha .yRot, ha .zRot, ha .throttle, ha .rudder, ha .hat1, ha .hat2⟩

/-- The fields that are reported whole and the reported nibbles of the hats are equal. -/
structure ReportedAlike (S T : JoystickState) : Prop where
  buttons : S.buttons = T.buttons
  axes : ∀ id : AxisId, id ≠ .hat1 → id ≠ .hat2 → S.readAxis id = T.readAxis id
  hat1 : S.hatSw1.extractLsb' 0 4 = T.hatSw1.extractLsb' 0 4
  hat2 : S.hatSw2.extractLsb' 0 4 = T.hatSw2.extractLsb' 0 4

theorem ReportedAlike.of_encodeReport_eq {S T : JoystickState} (h : encodeReport S = encodeReport T) :
    ReportedAlike S T where
  buttons := by rw [← encodeReport_buttonBytes_append S, h, encodeReport_buttonBytes_append]
  axes id h1 h2 := by
    apply Option.some.inj
    rw [← encodeReport_axisByte S h1 h2, h, encodeReport_axisByte T h1 h2]
  hat1 := by rw [← hatByte_low _ S.hatSw2, ← encodeReport_6, h, encodeReport_6, hatByte_low]
  hat2 := by rw [← hatByte_high S.hatSw1, ← encodeReport_6, h, encodeReport_6, hatByte_high]

theorem ReportedAlike.encodeReport_eq {S T : JoystickState} (h : ReportedAlike S T) :
    encodeReport S = encodeReport T := by
  have hhat : hatByte S.hatSw1 S.hatSw2 = hatByte T.hatSw1 T.hatSw2 := by
    rw [hatByte_eq_nibbles, h.hat1, h.hat2, ← hatByte_eq_nibbles]
  have hS : S = { T with hatSw1 := S.hatSw1, hatSw2 := S.hatSw2 } := by
    refine joystick_ext h.buttons fun id => ?_
    cases id with
    | hat1 => rfl
    | hat2 => rfl
    | _ => exact h.axes _ (by decide) (by decide)
  calc encodeReport S
    _ = encodeReport { T with hatSw1 := S.hatSw1, hatSw2 := S.hatSw2 } := congrArg encodeReport hS
    _ = encodeReport T := by simp only [encodeReport, hhat]

/-- The state whose report is `r`, the unreported hat bits 0. -/
def stateOfReport (r : Report) : JoystickState where
  buttons := r[3] ++ r[2] ++ r[1] ++ r[0]
  xAxis := r[7]
  yAxis := r[8]
  zAxis := r[9]
  xRotAxis := r[10]
  yRotAxis := r[11]
  zRotAxis := r[12]
  throttle := r[4]
  rudder := r[5]
  hatSw1 := (r[6].extractLsb' 0 4).setWidth 8
  hatSw2 := (r[6].extractLsb' 4 4).setWidth 8

theorem encodeReport_stateOfReport (r : Report) : encodeReport (stateOfReport r) = r := by
  apply report_ext
  intro k hk
  interval_cases k
  · exact extract_append_low _ _
  · exact (extract_append_high _ _ 0 8).trans (extract_append_low _ _)
  · exact (extract_append_high _ _ 8 8).trans ((extract_append_high _ _ 0 8).trans (extract_append_low _ _))
  · exact (extract_append_high _ _ 16 8).trans
      ((extract_append_high _ _ 8 8).trans ((extract_append_high _ _ 0 8).trans (extract_whole _)))
  · rfl
  · rfl
  · exact hatByte_of_nibbles r[6]
  all_goals rfl

theorem setWidth_nibble_toNat_lt (x : BitVec 4) : (x.setWidth 8).toNat < 16 := by
  rw [BitVec.toNat_setWidth_of_le (by decide)]
  exact x.isLt

/-- A hat value below 16 is its low nibble. -/
theorem hat_eq_of_nibble_eq {h h' : Byte} (hh : h.toNat < 16) (hh' : h'.toNat < 16)
    (heq : h.extractLsb' 0 4 = h'.extractLsb' 0 4) : h = h' := by
  apply BitVec.eq_of_toNat_eq
  have := congrArg BitVec.toNat heq
  simpa [Nat.mod_eq_of_lt, hh, hh'] using this

theorem ReportedAlike.eq_of_hats_lt {S T : JoystickState} (h : ReportedAlike S T)
    (hS1 : S.hatSw1.toNat < 16) (hS2 : S.hatSw2.toNat < 16) (hT1 : T.hatSw1.toNat < 16) (hT2 : T.hatSw2.toNat < 16) :
    S = T := by
  refine joystick_ext h.buttons fun id => ?_
  cases id with
  | hat1 => exact hat_eq_of_nibble_eq hS1 hT1 h.hat1
  | hat2 => exact hat_eq_of_nibble_eq hS2 hT2 h.hat2
  | _ => exact h.axes _ (by decide) (by decide)

/-- Settles O14: the bytes determine the reported bits and are determined by them, and `stateOfReport` is the one state
with small hats behind a report. -/
theorem reportShowsExactlyTheReportedBits : Obligations.ReportShowsExactlyTheReportedBits := by
  refine ⟨fun S T => ⟨fun h => ?_, fun ⟨hb, ha, h1, h2⟩ => ReportedAlike.encodeReport_eq ⟨hb, ha, h1, h2⟩⟩,
    fun r => ⟨stateOfReport r, setWidth_nibble_toNat_lt _, setWidth_nibble_toNat_lt _, encodeReport_stateOfReport r,
      fun T hT1 hT2 hT => ?_⟩⟩
  · obtain ⟨hb, ha, h1, h2⟩ := ReportedAlike.of_encodeReport_eq h
    exact ⟨hb, ha, h1, h2⟩
  · have halike := ReportedAlike.of_encodeReport_eq (hT.trans (encodeReport_stateOfReport r).symm)
    exact halike.eq_of_hats_lt hT1 hT2 (setWidth_nibble_toNat_lt _) (setWidth_nibble_toNat_lt _)

end Sys2Proof.Machine
end

/-! ### Proofs: the button operations (spec/41_button_ops.md) -/

section
namespace Sys2Proof.Machine

/-! ### The plan of each button operation (R65 to R68) -/

theorem planOf_buttonDown {a : Byte} (h : a.toNat < 32) :
    planOf (.buttonDown a) = { phases := [.setButton a], result := .ok } := by
  simp [planOf, planButtonDown, indexOutOfRange_eq_false h]

theorem planOf_buttonUp {a : Byte} (h : a.toNat < 32) :
    planOf (.buttonUp a) = { phases := [.clearButton a], result := .ok } := by
  simp [planOf, planButtonUp, indexOutOfRange_eq_false h]

theorem planOf_buttonPress {a : Byte} (h : a.toNat < 32) :
    planOf (.buttonPress a) = { phases := [.setButton a, .clearButton a], result := .ok } := by
  simp [planOf, planButtonPress, indexOutOfRange_eq_false h]

theorem planOf_button_outOfRange {a : Byte} (h : 32 ≤ a.toNat) :
    ∀ i ∈ [Instr.buttonDown a, Instr.buttonUp a, Instr.buttonPress a], planOf i = raiseFail .index := by
  simp [planOf, planButtonDown, planButtonUp, planButtonPress, indexOutOfRange_eq_true h]

/-- The index check of the press is that of both its halves, so this needs no index in range. -/
theorem planOf_buttonPress_eq_down_up (a : Byte) :
    (planOf (.buttonPress a)).phases = (planOf (.buttonDown a)).phases ++ (planOf (.buttonUp a)).phases ∧
      (planOf (.buttonPress a)).result = (planOf (.buttonDown a)).result := by
  simp only [planOf, planButtonDown, planButtonUp, planButtonPress]
  cases indexOutOfRange a
  · exact ⟨rfl, rfl⟩
  · exact ⟨rfl, rfl⟩

/-! ### The next state of each button operation (R69) -/

theorem exec_buttonDown {a : Byte} (h : a.toNat < 32) (s : State) :
    exec (.buttonDown a) s = .next (s.after ((Mutation.setButton a).apply s.joystick)
      [(Mutation.setButton a).apply s.joystick] .ok) := by
  rw [exec_eq_perform, perform_eq, planOf_buttonDown h]
  rfl

theorem exec_buttonUp {a : Byte} (h : a.toNat < 32) (s : State) :
    exec (.buttonUp a) s = .next (s.after ((Mutation.clearButton a).apply s.joystick)
      [(Mutation.clearButton a).apply s.joystick] .ok) := by
  rw [exec_eq_perform, perform_eq, planOf_buttonUp h]
  rfl

/-- Clearing a bit forgets that it was set. -/
theorem clearButton_setButton (a : Byte) (S : JoystickState) :
    (Mutation.clearButton a).apply ((Mutation.setButton a).apply S) = (Mutation.clearButton a).apply S := by
  have hmask : (S.buttons ||| buttonBit a) &&& ~~~(buttonBit a) = S.buttons &&& ~~~(buttonBit a) := by
    apply BitVec.eq_of_getLsbD_eq
    intro j hj
    cases h : (buttonBit a).getLsbD j <;> simp [h]
  simp only [Mutation.apply, hmask]

theorem exec_buttonPress {a : Byte} (h : a.toNat < 32) (s : State) :
    exec (.buttonPress a) s = .next (s.after ((Mutation.clearButton a).apply s.joystick)
      [(Mutation.setButton a).apply s.joystick, (Mutation.clearButton a).apply s.joystick] .ok) := by
  rw [exec_eq_perform, perform_eq, planOf_buttonPress h]
  simp only [finalState_cons, finalState_nil, statesAfter_cons, statesAfter_nil, clearButton_setButton]

/-- Settles O22: the plan is the failing one. -/
theorem buttonIndexOutOfRangeFails : Obligations.ButtonIndexOutOfRangeFails := by
  intro s a h i hi
  rw [exec_eq_perform, planOf_button_outOfRange h i hi, perform_raiseFail]

theorem after_fail (s : State) :
    s.after s.joystick [] .fail = { s with results := s.results ++ [.fail] } := by
  simp [State.after]

/-- Settles O21: in range by the next state of each operation, out of range by O22. -/
theorem buttonOperations : Obligations.ButtonOperations := by
  refine fun s a => ⟨fun h => ⟨exec_buttonDown h s, exec_buttonUp h s, exec_buttonPress h s⟩, fun h => ?_⟩
  have hfail := buttonIndexOutOfRangeFails s a h
  rw [after_fail]
  exact ⟨hfail _ (by simp), hfail _ (by simp), hfail _ (by simp)⟩

/-! ### A press is a down and an up (R51, R67) -/

/-- Settles O25: the phases of the press are those of the down and then those of the up. -/
theorem pressIsDownThenUp : Obligations.PressIsDownThenUp := by
  intro s a
  obtain ⟨hphases, hresult⟩ := planOf_buttonPress_eq_down_up a
  refine ⟨_, _, _, exec_eq_perform _ _, exec_eq_perform _ _, exec_eq_perform _ _, ?_⟩
  simp [perform_eq, State.after, hphases, hresult, finalState_append, statesAfter_append]

/-! ### The one report bit of a button (R11, R26, R27) -/

/-- A byte of the report from offset 4 on carries no button. -/
theorem encodeReport_withButtons_of_ge (S : JoystickState) (x : ButtonMask) {k : Nat} (h4 : 4 ≤ k) (hk : k < 13) :
    (encodeReport { S with buttons := x })[k]? = (encodeReport S)[k]? := by
  interval_cases k <;> rfl

/-- Bit `j` of button byte `k` is bit `8 * k + j` of the mask. -/
theorem buttonByte_getLsbD {S : JoystickState} {k j : Nat} {b : Byte} (hk : k < 4) (hj : j < 8)
    (hb : (encodeReport S)[k]? = some b) : b.getLsbD j = S.buttons.getLsbD (8 * k + j) := by
  rw [encodeReport_buttonByte S hk] at hb
  obtain rfl := Option.some.inj hb
  simp [hj]

/-- When the mask changes in bit `n` alone, the report changes in bit `n % 8` of byte `n / 8` alone. -/
theorem reportBit_of_maskBit {S : JoystickState} {x : ButtonMask} {n : Nat} {v : Bool} (hn : n < 32)
    (hx : ∀ i < 32, x.getLsbD i = if i = n then v else S.buttons.getLsbD i)
    {k j : Nat} (hk : k < 13) (hj : j < 8) {b b' : Byte} (hb : (encodeReport S)[k]? = some b)
    (hb' : (encodeReport { S with buttons := x })[k]? = some b') :
    b'.getLsbD j = if k = n / 8 ∧ j = n % 8 then v else b.getLsbD j := by
  rcases Nat.lt_or_ge k 4 with h4 | h4
  · have hplace : 8 * k + j = n ↔ k = n / 8 ∧ j = n % 8 := by omega
    rw [buttonByte_getLsbD h4 hj hb', hx _ (by omega), buttonByte_getLsbD h4 hj hb]
    simp only [hplace]
  · have hne : ¬ (k = n / 8 ∧ j = n % 8) := by omega
    rw [encodeReport_withButtons_of_ge S x h4 hk, hb] at hb'
    rw [if_neg hne, Option.some.inj hb']

section
variable {a : Byte} {S : JoystickState} {k j : Nat} {b b' : Byte}

theorem setButton_reportBit (ha : a.toNat < 32) (hk : k < 13) (hj : j < 8) (hb : (encodeReport S)[k]? = some b)
    (hb' : (encodeReport ((Mutation.setButton a).apply S))[k]? = some b') :
    b'.getLsbD j = if k = a.toNat / 8 ∧ j = a.toNat % 8 then true else b.getLsbD j := by
  refine reportBit_of_maskBit ha (fun i hi => (setButton_getLsbD a S hi).trans ?_) hk hj hb hb'
  by_cases h : i = a.toNat <;> simp [h]

theorem clearButton_reportBit (ha : a.toNat < 32) (hk : k < 13) (hj : j < 8) (hb : (encodeReport S)[k]? = some b)
    (hb' : (encodeReport ((Mutation.clearButton a).apply S))[k]? = some b') :
    b'.getLsbD j = if k = a.toNat / 8 ∧ j = a.toNat % 8 then false else b.getLsbD j := by
  refine reportBit_of_maskBit ha (fun i hi => (clearButton_getLsbD a S hi).trans ?_) hk hj hb hb'
  by_cases h : i = a.toNat <;> simp [h]

end

/-- Settles O23: each of the two makes one mutation, which changes one bit of the mask. -/
theorem buttonWritesExactlyOneReportBit : Obligations.ButtonWritesExactlyOneReportBit := by
  intro s a h
  refine ⟨_, _, exec_buttonDown h s, exec_buttonUp h s, fun k j hk hj b bd bu hb hbd hbu => ?_⟩
  exact ⟨setButton_reportBit h hk hj hb hbd, clearButton_reportBit h hk hj hb hbu⟩

/-- Settles O24: both reports are compared with the report of the state before the press. -/
theorem pressReportsDifferInOneBit : Obligations.PressReportsDifferInOneBit := by
  intro s a h
  refine ⟨_, txEvent ((Mutation.setButton a).apply s.joystick), txEvent ((Mutation.clearButton a).apply s.joystick),
    exec_buttonPress h s, rfl, fun k j hk hj b₁ b₂ hb₁ hb₂ => ?_⟩
  have hb : (encodeReport s.joystick)[k]? = some (encodeReport s.joystick)[k] := Vector.getElem?_eq_getElem hk
  rw [setButton_reportBit h hk hj hb hb₁, clearButton_reportBit h hk hj hb hb₂]
  exact ⟨fun hbit => by simp [hbit], fun hbit => by simp only [if_neg hbit]⟩

end Sys2Proof.Machine
end

/-! ### Proofs: the axis operations (spec/42_axis_ops.md) -/

section
namespace Sys2Proof.Machine

/-! ### The plan of each axis operation (R75, R76, R80) -/

theorem planOf_axisSet_code (id : AxisId) (v : Byte) :
    planOf (.axisSet id.code v) = { phases := [.writeAxis id v], result := .ok } := by
  simp only [planOf, planAxisSet, lookupAxis_code]

theorem planOf_axisReset_code (id : AxisId) :
    planOf (.axisReset id.code) = { phases := [.writeAxis id (axisRest id)], result := .ok } := by
  simp only [planOf, planAxisReset, lookupAxis_code]

theorem planOf_axisSet_unknown {a : Byte} (h : 10 ≤ a.toNat) (v : Byte) :
    planOf (.axisSet a v) = raiseFail .axis := by
  simp only [planOf, planAxisSet, lookupAxis_eq_none h]

theorem planOf_axisReset_unknown {a : Byte} (h : 10 ≤ a.toNat) : planOf (.axisReset a) = raiseFail .axis := by
  simp only [planOf, planAxisReset, lookupAxis_eq_none h]

/-! ### The next state of each axis operation (R75, R76, R80) -/

theorem exec_axisSet_code (id : AxisId) (v : Byte) (s : State) :
    exec (.axisSet id.code v) s = .next (s.after (s.joystick.writeAxis id v) [s.joystick.writeAxis id v] .ok) := by
  rw [exec_eq_perform, perform_eq, planOf_axisSet_code]
  rfl

/-- Settles O31: the two commands have the same plan, for a known identifier and for an unknown one. -/
theorem axisResetIsAxisSetOfRest : Obligations.AxisResetIsAxisSetOfRest := by
  refine ⟨fun s id => ?_, fun s a v h => ?_⟩
  · rw [exec_eq_perform, exec_eq_perform, planOf_axisReset_code, planOf_axisSet_code, axisRest_eq_readAxis_rest]
  · rw [exec_eq_perform, exec_eq_perform, planOf_axisReset_unknown h, planOf_axisSet_unknown h]

theorem exec_axisReset_code (id : AxisId) (s : State) :
    exec (.axisReset id.code) s = .next (s.after (s.joystick.writeAxis id (JoystickState.rest.readAxis id))
      [s.joystick.writeAxis id (JoystickState.rest.readAxis id)] .ok) :=
  (axisResetIsAxisSetOfRest.1 s id).trans (exec_axisSet_code id _ s)

/-- Settles O28: the plan is the failing one for AXIS_SET, and AXIS_RESET fails alike. -/
theorem unknownAxisFails : Obligations.UnknownAxisFails := by
  intro s a v h
  have hset : exec (.axisSet a v) s = .next { s with results := s.results ++ [.fail] } := by
    rw [exec_eq_perform, planOf_axisSet_unknown h, perform_raiseFail]
  exact ⟨hset, (axisResetIsAxisSetOfRest.2 s a v h).trans hset⟩

/-- Settles O26: each identifier writes its own field, by the equations of `writeAxis`. -/
theorem axisSetWritesTheField : Obligations.AxisSetWritesTheField := by
  intro s v
  have known (id : AxisId) := exec_axisSet_code id v s
  refine ⟨⟨known .x, known .y, known .z, known .xRot, known .yRot, known .zRot, known .throttle, known .rudder,
    known .hat1, known .hat2⟩, fun a h => ?_⟩
  rw [after_fail]
  exact (unknownAxisFails s a v h).1

/-- Settles O27: each identifier writes its own field, with the value it has in the record `REST`. -/
theorem axisResetWritesTheRestValue : Obligations.AxisResetWritesTheRestValue := by
  intro s
  have known (id : AxisId) := exec_axisReset_code id s
  refine ⟨⟨known .x, known .y, known .z, known .xRot, known .yRot, known .zRot, known .throttle, known .rudder,
    known .hat1, known .hat2⟩, fun a h => ?_⟩
  rw [after_fail]
  exact (unknownAxisFails s a 0 h).2

/-! ### The field that a report bit is taken from (R12, R26, R29) -/

/-- Byte 6 is the low nibbles of the two hats (R29). -/
theorem encodeReport_hatNibbles (S : JoystickState) :
    (encodeReport S)[6]? = some (S.hatSw2.extractLsb' 0 4 ++ S.hatSw1.extractLsb' 0 4) :=
  congrArg some (hatByte_eq_nibbles S.hatSw1 S.hatSw2)

/-- Settles O30: a hat write leaves the other hat's register, and byte 6 is made of both registers' low nibbles. -/
theorem hatsStoreAllReportLow : Obligations.HatsStoreAllReportLow := fun s v =>
  ⟨_, _, exec_axisSet_code .hat1 v s, exec_axisSet_code .hat2 v s, rfl, rfl, rfl, rfl,
    encodeReport_hatNibbles _, encodeReport_hatNibbles _⟩

/-- From offset 4 on a byte of the report is the hats' or the whole of one other field. -/
theorem reportByte_cases {k : Nat} (h4 : 4 ≤ k) (hk : k < 13) :
    k = 6 ∨ ∃ id : AxisId, id ≠ .hat1 ∧ id ≠ .hat2 ∧ k = reportByte id := by
  interval_cases k
  · exact .inr ⟨.throttle, by decide⟩
  · exact .inr ⟨.rudder, by decide⟩
  · exact .inl rfl
  · exact .inr ⟨.x, by decide⟩
  · exact .inr ⟨.y, by decide⟩
  · exact .inr ⟨.z, by decide⟩
  · exact .inr ⟨.xRot, by decide⟩
  · exact .inr ⟨.yRot, by decide⟩
  · exact .inr ⟨.zRot, by decide⟩

theorem reportBit_of_not_hat {id : AxisId} (h1 : id ≠ .hat1) (h2 : id ≠ .hat2) {j : Nat} (hj : j < 8) :
    reportBit id j = true := by
  cases id with
  | hat1 => exact absurd rfl h1
  | hat2 => exact absurd rfl h2
  | _ => exact decide_eq_true hj

/-- Every report bit outside the button bytes is one bit of one field, the same for all states; the bit lies where
that field is reported. -/
theorem reportBit_source {k j : Nat} (h4 : 4 ≤ k) (hk : k < 13) (hj : j < 8) :
    ∃ (id : AxisId) (i : Nat), k = reportByte id ∧ reportBit id j = true ∧
      ∀ S b, (encodeReport S)[k]? = some b → b.getLsbD j = (S.readAxis id).getLsbD i := by
  rcases reportByte_cases h4 hk with rfl | ⟨id, h1, h2, rfl⟩
  · have hbyte (S : JoystickState) (b : Byte) (hb : (encodeReport S)[6]? = some b) : hatByte S.hatSw1 S.hatSw2 = b :=
      Option.some.inj hb
    rcases Nat.lt_or_ge j 4 with hlow | hhigh
    · refine ⟨.hat1, j, rfl, decide_eq_true hlow, fun S b hb => ?_⟩
      rw [← hbyte S b hb, hatByte_getLsbD, if_pos hlow]
      rfl
    · refine ⟨.hat2, j - 4, rfl, decide_eq_true ⟨hhigh, hj⟩, fun S b hb => ?_⟩
      rw [← hbyte S b hb, hatByte_getLsbD, if_neg (Nat.not_lt.mpr hhigh), decide_eq_true hj, Bool.true_and]
      rfl
  · refine ⟨id, j, rfl, reportBit_of_not_hat h1 h2 hj, fun S b hb => ?_⟩
    rw [encodeReport_axisByte S h1 h2] at hb
    rw [Option.some.inj hb]

/-- A report bit that an axis write changed lies where the written field is reported. -/
theorem writeAxis_reportBit_of_ne {S : JoystickState} {id : AxisId} {v : Byte} {k j : Nat} (hk : k < 13) (hj : j < 8)
    {b b' : Byte} (hb : (encodeReport S)[k]? = some b) (hb' : (encodeReport (S.writeAxis id v))[k]? = some b')
    (hne : b.getLsbD j ≠ b'.getLsbD j) : k = reportByte id ∧ reportBit id j = true := by
  rcases Nat.lt_or_ge k 4 with h4 | h4
  · rw [buttonByte_getLsbD h4 hj hb, buttonByte_getLsbD h4 hj hb', writeAxis_buttons] at hne
    exact absurd rfl hne
  · obtain ⟨id', i, hbyte, hbit, hsource⟩ := reportBit_source h4 hk hj
    have hid : id' = id := by
      by_contra hother
      rw [hsource _ _ hb, hsource _ _ hb', readAxis_writeAxis_other S v hother] at hne
      exact hne rfl
    subst hid
    exact ⟨hbyte, hbit⟩

/-- Settles O29: the registers by the rules of `writeAxis`, the report by the field each of its bits is taken from. -/
theorem axisSetFrame : Obligations.AxisSetFrame := fun s id v =>
  ⟨_, exec_axisSet_code id v s, readAxis_writeAxis_same _ id v, fun _ hne => readAxis_writeAxis_other _ v hne,
    writeAxis_buttons _ id v, rfl, fun _ _ hk hj _ _ hb hb' hne => writeAxis_reportBit_of_ne hk hj hb hb' hne⟩

end Sys2Proof.Machine
end

/-! ### Proofs: the lifecycle operations (spec/43_lifecycle_ops.md) -/

section
namespace Sys2Proof.Machine

/-- BEGIN invokes RELEASE_ALL (R86). -/
theorem planOf_begin_eq_releaseAll : planOf .beginOp = planOf .releaseAll := rfl

theorem exec_releaseAll (s : State) : exec .releaseAll s = .next (s.after .rest [.rest] .ok) := by
  rw [exec_eq_perform, perform_eq]
  rfl

theorem exec_begin (s : State) : exec .beginOp s = .next (s.after .rest [.rest] .ok) := by
  rw [exec_eq_perform, planOf_begin_eq_releaseAll, ← exec_eq_perform, exec_releaseAll]

/-- END has no phases, so it keeps the registers and reports nothing (R87). -/
theorem exec_end (s : State) : exec .endOp s = .next (s.after s.joystick [] .ok) := by
  rw [exec_eq_perform, perform_eq]
  rfl

/-- Settles O32: the next state of each operation; the rest report is the last part of O12. -/
theorem lifecycleOperations : Obligations.LifecycleOperations := by
  obtain ⟨-, -, -, -, hrest⟩ := reportLayout
  exact ⟨fun s => ⟨exec_releaseAll s, exec_begin s, exec_end s⟩, hrest⟩

end Sys2Proof.Machine
end

/-! ### Proofs: results and failures (spec/60_exceptions.md) -/

section
namespace Sys2Proof.Machine

/-! ### Nothing presented (R102) -/

theorem step_idle {s : State} (h : s.caller = []) : step s = .next s := by
  rw [step_eq, h]

/-- Settles O10. -/
theorem idleBlockDoesNothing : Obligations.IdleBlockDoesNothing :=
  fun _ h => step_idle h

/-! ### The commands outside the contract (R94): one equivalence per check -/

theorem indexInRange_eq_false_iff (i : Instr) :
    i.indexInRange = false ↔
      ∃ a, (i = .buttonDown a ∨ i = .buttonUp a ∨ i = .buttonPress a) ∧ 32 ≤ a.toNat := by
  cases i <;> simp [Instr.indexInRange]

theorem axisKnown_eq_false_iff (i : Instr) :
    i.axisKnown = false ↔ ∃ a, ((∃ v, i = .axisSet a v) ∨ i = .axisReset a) ∧ 10 ≤ a.toNat := by
  cases i <;> simp [Instr.axisKnown]

theorem spellsOperation_eq_false_iff (i : Instr) : i.spellsOperation = false ↔ i = .reserved := by
  cases i <;> simp [Instr.spellsOperation]

/-- The three failure causes of R94, one per check. -/
theorem wellFormed_eq_false_iff (i : Instr) :
    i.WellFormed = false ↔ i.indexInRange = false ∨ i.axisKnown = false ∨ i.spellsOperation = false := by
  simp only [Instr.WellFormed, Bool.and_eq_false_iff]
  tauto

/-! ### The result of a command, and what a failing one does (R94, R96) -/

theorem planOf_result (i : Instr) : (planOf i).result = if i.WellFormed then .ok else .fail := by
  rcases planOf_wellFormed i with ⟨hwf, hok⟩ | ⟨hwf, hfail, -⟩
  · rw [hok, hwf, if_pos rfl]
  · simp [hfail, hwf]

@[simp] theorem perform_results (s : State) (p : Plan) : (s.perform p).results = s.results ++ [p.result] := by
  rw [perform_eq]
  rfl

/-- A command outside the contract runs no phase, so its `FAIL` is all it leaves. -/
theorem perform_of_not_wellFormed {i : Instr} (h : i.WellFormed = false) (s : State) :
    s.perform (planOf i) = { s with results := s.results ++ [.fail] } := by
  rcases planOf_wellFormed i with ⟨hwf, -⟩ | ⟨-, hfail, hnone⟩
  · simp [hwf] at h
  · rw [perform_eq, hnone, hfail]
    exact after_fail s

/-- A command that answers `FAIL` is outside the contract. -/
theorem not_wellFormed_of_answers_fail {i : Instr} {s : State}
    (h : (s.perform (planOf i)).results = s.results ++ [.fail]) : i.WellFormed = false := by
  by_contra hwf
  simp [planOf_result, hwf] at h

/-- Settles O34: the result is that of the plan, and each check of the contract fails on its own commands. -/
theorem resultIsOkExactlyWhenInRange : Obligations.ResultIsOkExactlyWhenInRange := by
  refine fun i s => ⟨_, exec_eq_perform i s, ?_, ?_⟩
  · rw [perform_results, planOf_result]
  · rw [wellFormed_eq_false_iff, indexInRange_eq_false_iff, axisKnown_eq_false_iff, spellsOperation_eq_false_iff]

/-- Settles O35: a failing command leaves only its `FAIL`, and only a command outside the contract answers `FAIL`. -/
theorem failureChangesNothing : Obligations.FailureChangesNothing := by
  refine ⟨fun i s h => ?_, fun i s t h hr => ?_⟩
  · rw [exec_eq_perform, perform_of_not_wellFormed h, after_fail]
  · rw [exec_eq_perform] at h
    obtain rfl := Host.Outcome.next.inj h
    exact perform_of_not_wellFormed (not_wellFormed_of_answers_fail hr) s

/-! ### The results of a run (R52, R120) -/

/-- The results an input returns: one for a command, none for a reset, which abandons the command it cuts short. -/
def answersOf : Input → List Result
  | .command w => [(planOf (decode w)).result]
  | .reset => []
  | .cutShort _ _ => []

theorem applyInput_results (s : State) (i : Input) : (s.applyInput i).results = s.results ++ answersOf i := by
  cases i with
  | command w => exact perform_results s _
  | reset => simp [State.applyInput, answersOf]
  | cutShort w n => simp [State.applyInput, abandon_eq, answersOf]

theorem applyInputs_results (s : State) (inputs : List Input) :
    (s.applyInputs inputs).results = s.results ++ inputs.flatMap answersOf := by
  induction inputs generalizing s with
  | nil => simp
  | cons i l ih => rw [applyInputs_cons, ih, applyInput_results, List.flatMap_cons, List.append_assoc]

/-! ### A run without its failing commands (R98) -/

/-- An input that fails answers `FAIL`, every other one nothing but `OK`. -/
theorem answersOf_filter_ok (i : Input) :
    (answersOf i).filter (fun r => decide (r = .ok)) = if failing i then [] else answersOf i := by
  cases i with
  | command w => cases h : (decode w).WellFormed <;> simp [answersOf, failing, planOf_result, h]
  | reset => rfl
  | cutShort w n => rfl

theorem answers_without_failing (inputs : List Input) :
    (inputs.filter (fun i => !failing i)).flatMap answersOf =
      (inputs.flatMap answersOf).filter (fun r => decide (r = .ok)) := by
  induction inputs with
  | nil => rfl
  | cons i l ih =>
    rw [List.flatMap_cons, List.filter_append, answersOf_filter_ok, ← ih]
    cases h : failing i <;> simp [h]

theorem applyInput_of_failing {i : Input} (h : failing i = true) (s : State) :
    s.applyInput i = { s with results := s.results ++ [.fail] } := by
  cases i with
  | command w => exact perform_of_not_wellFormed (by simpa [failing] using h) s
  | reset => cases h
  | cutShort w n => cases h

/-- The runs with and without a failing command go on alike: what follows depends on the registers only (R20, R22). -/
theorem applyInputs_without_failing (s : State) (inputs : List Input) :
    (s.applyInputs inputs).joystick = (s.applyInputs (inputs.filter fun i => !failing i)).joystick ∧
      (s.applyInputs inputs).sent = (s.applyInputs (inputs.filter fun i => !failing i)).sent := by
  induction inputs generalizing s with
  | nil => exact ⟨rfl, rfl⟩
  | cons i l ih =>
    rw [applyInputs_cons]
    cases h : failing i with
    | false =>
      rw [List.filter_cons_of_pos (by simp [h])]
      exact ih (s.applyInput i)
    | true =>
      rw [List.filter_cons_of_neg (by simp [h]), applyInput_of_failing h]
      obtain ⟨hj, events, -, hs, hs', -⟩ :=
        applyInputs_addsAlike (s := { s with results := s.results ++ [.fail] }) (s' := s) rfl l
      obtain ⟨ihj, ihs⟩ := ih s
      exact ⟨hj.trans ihj, (hs.trans hs'.symm).trans ihs⟩

/-- Settles O42: both runs end where their folds end, and the answers of the inputs are filtered with the inputs. -/
theorem failedCommandsLeaveNoTrace : Obligations.FailedCommandsLeaveNoTrace := by
  intro s inputs
  obtain ⟨hj, hs⟩ := applyInputs_without_failing s inputs
  refine ⟨_, _, runsTo_applyInputs s inputs, runsTo_applyInputs s _, hj, hs,
    inputs.flatMap answersOf, applyInputs_results s inputs, ?_⟩
  rw [← answers_without_failing]
  exact applyInputs_results s _

end Sys2Proof.Machine
end

/-! ### Proofs: reset, runs and hazards (spec/70_reset_and_hazards.md) -/

section
namespace Sys2Proof.Machine

/-! ### The reset event (R107) -/

/-- Settles O38: the step on a reset is `resetBlock`, which writes the registers only. -/
theorem resetEvent : Obligations.ResetEvent := by
  intro s rest h
  rw [step_eq, h]
  rfl

/-- Settles O39: both the whole command and the abandoned one report the states the plan passes through, in order, so
the shorter list is cut off the longer one. -/
theorem resetAbandonsTheCommand : Obligations.ResetAbandonsTheCommand := by
  intro s w n rest h
  refine ⟨_, exec_eq_perform (decode w) (s.withCaller rest), ?_⟩
  have hstep : step s = .next ((s.withCaller rest).abandon (planOf (decode w)) n) := by rw [step_eq, h]
  have hsent : ((s.withCaller rest).perform (planOf (decode w))).sent =
      s.sent ++ (statesAfter s.joystick (planOf (decode w)).phases).map txEvent := by
    rw [perform_eq]
    rfl
  rw [hstep, abandon_eq, hsent, List.take_length_add_append, ← List.map_take]
  rfl

/-- Settles O46: nothing has been sent and nothing is presented. -/
theorem resetMeetsTheInvariants : Obligations.ResetMeetsTheInvariants := by
  have hnothing : State.reset.sent = [] := rfl
  refine ⟨fun e he => ?_, rfl, fun e he => ?_⟩
  · simp [hnothing] at he
  · simp [hnothing] at he

/-! ### Runs over any words (R120) -/

/-- Settles O40: the run ends where the fold ends, and a command answers the result of its plan. -/
theorem anyWordsRunToCompletion : Obligations.AnyWordsRunToCompletion := by
  intro s words
  refine ⟨_, runsTo_applyInputs s (words.map .command), rfl, ?_⟩
  have hanswers : (words.map Input.command).flatMap answersOf =
      words.map fun w => if (decode w).WellFormed then .ok else .fail := by
    simp [List.flatMap_map, answersOf, planOf_result, ← List.map_eq_flatMap]
  rw [State.withCaller_results, applyInputs_results, hanswers]

/-! ### Runs in which no mutation succeeds (R110) -/

theorem phases_of_silent {w : CmdWord} (h : silent (.command w) = true) : (planOf (decode w)).phases = [] := by
  rcases planOf_wellFormed (decode w) with ⟨hwf, -⟩ | ⟨-, -, hnone⟩
  · have hend : decode w = .endOp := by simpa [silent, hwf] using h
    rw [hend]
    rfl
  · exact hnone

/-- A silent input returns its result and does nothing else. -/
theorem applyInput_of_silent {i : Input} (h : silent i = true) (s : State) :
    s.applyInput i = { s with results := s.results ++ answersOf i } := by
  cases i with
  | command w =>
    rw [State.applyInput, perform_eq, phases_of_silent h]
    simp [State.after, answersOf]
  | reset => cases h
  | cutShort w n => cases h

theorem applyInputs_of_silent {inputs : List Input} (h : inputs.all silent = true) (s : State) :
    s.applyInputs inputs = { s with results := s.results ++ inputs.flatMap answersOf } := by
  induction inputs generalizing s with
  | nil => simp
  | cons i l ih =>
    obtain ⟨hi, hl⟩ : silent i = true ∧ l.all silent = true := by simpa using h
    simp [applyInput_of_silent hi, ih hl]

/-- The rest report is the last part of O12. -/
theorem encodeReport_rest : encodeReport .rest = #v[0, 0, 0, 0, 0, 0, 0, 0x80, 0x80, 0, 0, 0, 0] := by
  obtain ⟨-, -, -, -, hrest⟩ := reportLayout
  exact Vector.toList_inj.mp hrest

/-- What BEGIN sends from reset: the rest report, once (R86, R110). -/
theorem begin_sent_from_reset :
    (State.reset.perform (planOf .beginOp)).sent =
      [{ reportId := Config.reportId, buffer := #v[0, 0, 0, 0, 0, 0, 0, 0x80, 0x80, 0, 0, 0, 0], length := 13 }] := by
  have hbegin := (exec_eq_perform .beginOp State.reset).symm.trans (exec_begin State.reset)
  rw [Host.Outcome.next.inj hbegin, ← encodeReport_rest]
  rfl

/-- Settles O41: the silent inputs leave the reset state but for its results, on which no command depends. -/
theorem nothingSentBeforeTheFirstMutation : Obligations.NothingSentBeforeTheFirstMutation := by
  intro inputs h
  have hfold := applyInputs_of_silent h State.reset
  refine ⟨⟨_, runsTo_applyInputs _ _, ?_, ?_⟩, fun w => ?_⟩
  · rw [hfold]
    rfl
  · rw [hfold]
    rfl
  · have hsent : (State.reset.applyInputs (inputs ++ [.command w])).sent =
        (State.reset.perform (planOf (decode w))).sent := by
      rw [applyInputs_append, hfold, applyInputs_cons, applyInputs_nil, State.applyInput, perform_eq, perform_eq]
      rfl
    refine ⟨_, _, runsTo_applyInputs _ _, exec_eq_perform _ _, hsent, fun hbegin => ?_⟩
    rw [State.withCaller_sent, hsent, hbegin, begin_sent_from_reset]

/-! ### Reset at the ports (R107, R108) -/

theorem handshake_pins_in_reset (p : PortState) :
    (p.pins true).cmdReady = false ∧ (p.pins true).txValid = false ∧ (p.pins true).respValid = false :=
  ⟨rfl, rfl, rfl⟩

/-- Without a handshake pin at 1 nothing is accepted, handed over or returned. -/
theorem no_event_in_reset (p : PortState) {pin : PortIn} (h : pin.rst = true) :
    p.accepted pin = none ∧ p.handedOver pin = none ∧ p.responded pin = none := by
  simp [PortState.accepted, PortState.handedOver, PortState.responded, handshake_pins_in_reset p, h]

/-- Settles O51: the pins and the events of that cycle, and the state it leaves. -/
theorem resetAtThePorts : Obligations.ResetAtThePorts := by
  intro p pin go h
  obtain ⟨hcmd, htx, hresp⟩ := handshake_pins_in_reset p
  obtain ⟨haccepted, hhanded, hresponded⟩ := no_event_in_reset p h
  rw [cycle_reset p go h, h]
  exact ⟨hcmd, htx, hresp, haccepted, hhanded, hresponded, rfl, rfl⟩

/-- Settles O55: the base case of the refinement O47. -/
theorem portsAgreeAfterReset : Obligations.PortsAgreeAfterReset :=
  agree_afterReset_empty

/-! ### A transport that does not accept (R116) -/

/-- However long the transport does not take the report, no cycle changes the block or adds to the log. -/
theorem portRun_sending_wait {p : PortState} {todo : List Mutation} {r : Result} (hp : p.ctl = .sending todo r)
    (log : PortLog) {cycles : List (PortIn × Bool)} (h : ∀ c ∈ cycles, c.1.rst = false ∧ c.1.txReady = false) :
    portRun p log cycles = (p, log) := by
  induction cycles with
  | nil => rfl
  | cons c cycles ih =>
    obtain ⟨⟨hr, ht⟩, hrest⟩ := List.forall_mem_cons.mp h
    rw [portRun, cycle_sending_wait c.2 hr hp ht, record_sending_wait hr hp ht]
    exact ih hrest

/-- The pins while a report is presented (R61, R63). -/
theorem pins_of_sending {p : PortState} {todo : List Mutation} {r : Result} (hp : p.ctl = .sending todo r) :
    (p.pins false).cmdReady = false ∧ (p.pins false).txValid = true ∧
      (p.pins false).txDataPin = some (txData (encodeReport p.joystick)) := by
  simp [PortState.pins, hp]

/-- Settles O49: the run stands still, so the pins are those of a block that presents a report. -/
theorem blockIsHeldByItsTransport : Obligations.BlockIsHeldByItsTransport := by
  intro p log todo r cycles hp h
  rw [portRun_sending_wait hp log h]
  exact ⟨rfl, rfl, rfl, pins_of_sending hp⟩

/-! ### A transport that always accepts (R116, R121) -/

/-- A cycle without reset, in which the transport takes what is presented and the block advances. -/
def Unhindered (c : PortIn × Bool) : Prop := c.1.rst = false ∧ c.1.txReady = true ∧ c.2 = true

theorem exists_two_unhindered {cycles : List (PortIn × Bool)} (h : ∀ c ∈ cycles, Unhindered c)
    (hlen : 2 ≤ cycles.length) :
    ∃ c c' rest, cycles = c :: c' :: rest ∧ Unhindered c ∧ Unhindered c' ∧ ∀ d ∈ rest, Unhindered d := by
  rcases cycles with _ | ⟨c, _ | ⟨c', rest⟩⟩
  · simp at hlen
  · simp at hlen
  · exact ⟨c, c', rest, rfl, by simpa using h⟩

/-- Results are only ever added (R120). -/
theorem portRun_extends_results (p : PortState) (log : PortLog) (cycles : List (PortIn × Bool)) :
    log.results <+: (portRun p log cycles).2.results := by
  induction cycles generalizing p log with
  | nil => exact ⟨[], List.append_nil _⟩
  | cons c cycles ih => exact List.IsPrefix.trans ⟨_, rfl⟩ (ih (p.cycle c.1 c.2) (log.record p c.1))

theorem record_results_sending {p : PortState} (log : PortLog) {pin : PortIn} {todo : List Mutation} {r : Result}
    (hr : pin.rst = false) (hp : p.ctl = .sending todo r) : (log.record p pin).results = log.results := by
  simp [PortLog.record, PortState.responded, hr, hp]

theorem record_results_responding {p : PortState} (log : PortLog) {pin : PortIn} {r : Result}
    (hr : pin.rst = false) (hp : p.ctl = .responding r) : (log.record p pin).results = log.results ++ [r] := by
  simp [PortLog.record, PortState.responded, hr, hp]

/-- A block with no mutation left returns the result in the second cycle. -/
theorem result_of_busy_done {p : PortState} {r : Result} {c c' : PortIn × Bool} (log : PortLog)
    (cycles : List (PortIn × Bool)) (hp : p.ctl = .busy [] r) (hc : Unhindered c) (hc' : Unhindered c') :
    log.results ++ [r] <+: (portRun p log (c :: c' :: cycles)).2.results := by
  obtain ⟨hr, -, hgo⟩ := hc
  have hresponse := record_results_responding (p := { p with ctl := .responding r }) log hc'.1 rfl
  rw [portRun, hgo, cycle_busy_done hr hp, record_busy hr hp, portRun, ← hresponse]
  exact portRun_extends_results _ _ _

/-- A mutation and the handover of its report take two cycles, in which no result is returned. -/
theorem portRun_busy_mutate {p : PortState} {m : Mutation} {todo : List Mutation} {r : Result} {c c' : PortIn × Bool}
    (log : PortLog) (cycles : List (PortIn × Bool)) (hp : p.ctl = .busy (m :: todo) r) (hc : Unhindered c)
    (hc' : Unhindered c') :
    ∃ log', log'.results = log.results ∧
      portRun p log (c :: c' :: cycles) =
        portRun { joystick := m.apply p.joystick, ctl := .busy todo r } log' cycles := by
  obtain ⟨hr, -, hgo⟩ := hc
  obtain ⟨hr', ht', -⟩ := hc'
  have hresults := record_results_sending (p := { joystick := m.apply p.joystick, ctl := .sending todo r }) log hr' rfl
  refine ⟨_, hresults, ?_⟩
  rw [portRun, hgo, cycle_busy_mutate hr hp, record_busy hr hp, portRun, cycle_sending_take c'.2 hr' rfl ht']

/-- An unhindered block returns its result next: two cycles per mutation left, one to finish, one to respond. -/
theorem result_of_busy {p : PortState} {todo : List Mutation} {r : Result} (log : PortLog)
    {cycles : List (PortIn × Bool)} (hp : p.ctl = .busy todo r) (h : ∀ c ∈ cycles, Unhindered c)
    (hlen : 2 * todo.length + 2 ≤ cycles.length) :
    log.results ++ [r] <+: (portRun p log cycles).2.results := by
  induction todo generalizing p log cycles with
  | nil =>
    obtain ⟨c, c', rest, rfl, hc, hc', -⟩ := exists_two_unhindered h hlen
    exact result_of_busy_done log rest hp hc hc'
  | cons m todo ih =>
    obtain ⟨c, c', rest, rfl, hc, hc', hrest⟩ := exists_two_unhindered h (by omega)
    obtain ⟨log', hlog, hrun⟩ := portRun_busy_mutate log rest hp hc hc'
    simp only [List.length_cons] at hlen
    rw [hrun, ← hlog]
    exact ih log' rfl hrest (by omega)

/-- No command makes more than the two mutations of BUTTON_PRESS (R34, R67). -/
theorem MakesPhases.length_le_two {i : Instr} {ms : List Mutation} (h : MakesPhases i ms) : ms.length ≤ 2 := by
  cases h <;> simp

/-- Settles O50: the command is accepted in the first cycle, and its two mutations at most leave six cycles to go. -/
theorem commandCompletesWhenTransportAccepts : Obligations.CommandCompletesWhenTransportAccepts := by
  intro p log first cycles hp hr hv hlen h
  have hphases := (planOf_makesPhases (decode first.cmd)).length_le_two
  rw [portRun, cycle_idle_accept true hr hp hv, record_idle_accept hr hp hv, ← planOf_result]
  obtain ⟨more, hmore⟩ := result_of_busy (todo := (planOf (decode first.cmd)).phases)
    (p := { p with ctl := .busy _ (planOf (decode first.cmd)).result })
    { log with current := some (first.cmd, 0) } rfl h (by omega)
  exact ⟨more, by simpa using hmore.symm⟩

end Sys2Proof.Machine
end

/-! ### Proofs: a word placed by the host (log entries 2 and 21) -/

section
namespace Sys2Proof.Machine

theorem decodeTableWord_of_lt (nbits : Nat) {w : Nat} (h : w < 2 ^ 20) :
    decodeTableWord nbits w = some (decode (BitVec.ofNat 20 w)) :=
  if_pos h

/-- A word the port can carry (R61) is put in front of the caller's list, and nothing else changes. -/
theorem withFetchWord_of_lt (s : State) (nbits : Nat) {w : Nat} (h : w < 2 ^ 20) :
    s.withFetchWord nbits w = s.withCaller (.command (BitVec.ofNat 20 w) :: s.caller) :=
  if_pos h

@[simp] theorem withCaller_withCaller (s : State) (l l' : List Input) :
    (s.withCaller l).withCaller l' = s.withCaller l' := rfl

@[simp] theorem withCaller_self (s : State) : s.withCaller s.caller = s := rfl

/-- Settles O9: the placed word is the presented command, and consuming it gives back the state it was placed in. -/
theorem placedWordRunsNext : Obligations.PlacedWordRunsNext := by
  intro s nbits w h
  refine ⟨decodeTableWord_of_lt nbits h, ?_⟩
  have hcaller : (s.withFetchWord nbits w).caller = .command (BitVec.ofNat 20 w) :: s.caller := by
    rw [withFetchWord_of_lt s nbits h, State.withCaller_caller]
  have hconsumed : (s.withFetchWord nbits w).withCaller s.caller = s := by
    rw [withFetchWord_of_lt s nbits h, withCaller_withCaller, withCaller_self]
  rw [step_command hcaller, hconsumed]

end Sys2Proof.Machine
end
